-- ==== Sys2Proof/Word.lean ====
section
/-! DEFINITION. The word types of the EBIN range-coder core and the four-element group that the spec's register arrays
(a quaternion, VAR0 to VAR3, RESULT0 to RESULT3, half of ARG0 to ARG7) all have. -/

namespace Sys2Proof

/-- A register of the core: "Every register is 32 bits wide" (10_state.md R30). -/
abbrev Word := BitVec 32

/-- One byte of BUF (20_memory.md R80). -/
abbrev Byte := BitVec 8

/-- Four like things indexed by channel c = 0 (w), 1 (x), 2 (y), 3 (z) (42_quaternion.md R240, 44_predictor.md R327). -/
structure Quad (α : Type) where
  c0 : α
  c1 : α
  c2 : α
  c3 : α
deriving DecidableEq, Repr

namespace Quad

/-- Element c. -/
def get {α : Type} (q : Quad α) : Fin 4 → α
  | 0 => q.c0
  | 1 => q.c1
  | 2 => q.c2
  | 3 => q.c3

/-- Replace element c. -/
def set {α : Type} (q : Quad α) (c : Fin 4) (v : α) : Quad α :=
  match c with
  | 0 => { q with c0 := v }
  | 1 => { q with c1 := v }
  | 2 => { q with c2 := v }
  | 3 => { q with c3 := v }

/-- Apply a function to each element. -/
def map {α β : Type} (f : α → β) (q : Quad α) : Quad β := ⟨f q.c0, f q.c1, f q.c2, f q.c3⟩

/-- The group whose four elements are all v. -/
def all {α : Type} (v : α) : Quad α := ⟨v, v, v, v⟩

end Quad

end Sys2Proof
end

