-- ==== Sys2Proof/Syntax.lean ====
section
/-! DEFINITION. The commands of the core: one constructor per row of 30_encoding.md R135 (spec/opcode_table.json). The operand
fields of a command word (R131, R133) are its arguments, each in a type that holds exactly the values the field can hold;
every other operand is read from ARG0 to ARG7 by the command's meaning (R134). -/

namespace Sys2Proof

/-- BKT, "bucket (VarianceIndex) operand, zero-extended, 0..15" (R131). -/
abbrev Bucket := BitVec 4

/-- PRF: "precision profile select: 0 selects PROF0, 1 selects PROF1" (R131). -/
inductive Profile where
  | prof0
  | prof1
deriving DecidableEq, Repr

/-- The 26 commands (R135). -/
inductive Instr where
  -- control (40_control.md)
  | nop
  | srst
  | prst
  -- variance model (41_variance_model.md)
  | cdf (b : Bucket)
  | freq (b : Bucket)
  | icdf (b : Bucket)
  | v2b
  | b2v
  | scalebits
  -- fixed-point quaternion (42_quaternion.md)
  | qmul (cnj : Bool)
  | qexp
  -- range encoder and decoder (43_range_coder.md)
  | encInit
  | encSym
  | encSymb (b : Bucket)
  | encFlush
  | decInit
  | decVal
  | decConsume
  | decSymb (b : Bucket)
  -- predictor, quantizer and variance state (44_predictor.md)
  | predict
  | quant (p : Profile)
  | dequant (p : Profile)
  | classify
  | vupd
  -- block compressor (45_block.md)
  | compress (p : Profile)
  | decompress
deriving DecidableEq, Repr

end Sys2Proof
end

