-- ==== Sys2Proof/WellFormed.lean ====
section
/-! DEFINITION. Which command words are well formed (30_encoding.md R132): the opcode map of R135 as its rows of mask and
match, and the check that some row matches. The decoder (Decode.lean) is written from the FIELDS of R131 instead, so that the
two readings of the encoding can be held against each other. An `Instr` needs no check of its own: its operand types hold
exactly the values of their fields (BKT in [0,15], PRF and CNJ one bit). -/

namespace Sys2Proof

/-- One row of the opcode map (R135). -/
structure OpcodeRow where
  mnemonic : String
  mask : Word
  pattern : Word
deriving DecidableEq, Repr

/-- Rows of the opcode map, R135, opcodes 0x00 to 0x21. -/
def opcodeRowsLow : List OpcodeRow :=
  [ ⟨"NOP", 0xFFFFFFFF#32, 0x00000000#32⟩,
    ⟨"SRST", 0xFFFFFFFF#32, 0x00000001#32⟩,
    ⟨"PRST", 0xFFFFFFFF#32, 0x00000002#32⟩,
    ⟨"CDF", 0xFFFFF0FF#32, 0x00000010#32⟩,
    ⟨"FREQ", 0xFFFFF0FF#32, 0x00000011#32⟩,
    ⟨"ICDF", 0xFFFFF0FF#32, 0x00000012#32⟩,
    ⟨"V2B", 0xFFFFFFFF#32, 0x00000013#32⟩,
    ⟨"B2V", 0xFFFFFFFF#32, 0x00000014#32⟩,
    ⟨"SCALEBITS", 0xFFFFFFFF#32, 0x00000015#32⟩,
    ⟨"QMUL", 0xFFFFDFFF#32, 0x00000020#32⟩,
    ⟨"QEXP", 0xFFFFFFFF#32, 0x00000021#32⟩ ]

/-- Rows of the opcode map, R135, opcodes 0x30 to 0x51. -/
def opcodeRowsHigh : List OpcodeRow :=
  [ ⟨"ENC_INIT", 0xFFFFFFFF#32, 0x00000030#32⟩,
    ⟨"ENC_SYM", 0xFFFFFFFF#32, 0x00000031#32⟩,
    ⟨"ENC_SYMB", 0xFFFFF0FF#32, 0x00000032#32⟩,
    ⟨"ENC_FLUSH", 0xFFFFFFFF#32, 0x00000033#32⟩,
    ⟨"DEC_INIT", 0xFFFFFFFF#32, 0x00000038#32⟩,
    ⟨"DEC_VAL", 0xFFFFFFFF#32, 0x00000039#32⟩,
    ⟨"DEC_CONSUME", 0xFFFFFFFF#32, 0x0000003A#32⟩,
    ⟨"DEC_SYMB", 0xFFFFF0FF#32, 0x0000003B#32⟩,
    ⟨"PREDICT", 0xFFFFFFFF#32, 0x00000040#32⟩,
    ⟨"QUANT", 0xFFFFEFFF#32, 0x00000041#32⟩,
    ⟨"DEQUANT", 0xFFFFEFFF#32, 0x00000042#32⟩,
    ⟨"CLASSIFY", 0xFFFFFFFF#32, 0x00000043#32⟩,
    ⟨"VUPD", 0xFFFFFFFF#32, 0x00000044#32⟩,
    ⟨"COMPRESS", 0xFFFFEFFF#32, 0x00000050#32⟩,
    ⟨"DECOMPRESS", 0xFFFFFFFF#32, 0x00000051#32⟩ ]

/-- The opcode map, R135. -/
def opcodeRows : List OpcodeRow := opcodeRowsLow ++ opcodeRowsHigh

/-- `(word AND mask) = match` (R132). -/
def OpcodeRow.accepts (r : OpcodeRow) (w : Word) : Bool := (w &&& r.mask) == r.pattern

/-- "A word is valid if and only if, for some row of rule R135, (word AND mask) = match." (R132) -/
def wellFormedWord (w : Word) : Bool := opcodeRows.any (·.accepts w)

end Sys2Proof
end

