-- ==== Sys2Proof/Decode.lean ====
section
/-! DEFINITION. Decoding a command word (30_encoding.md R130 to R137), total on every word and refusing an illegal one by name,
and encoding a command (R136). -/

namespace Sys2Proof

/-- Why a command word is illegal (R132, R137). All three complete with ILLEGAL_COMMAND (60_exceptions.md R402). -/
inductive Illegal where
  /-- OPC is not in the opcode map (R137). -/
  | unassignedOpcode (opc : BitVec 8)
  /-- RSV, bits 31:14, is not 0 (R132). -/
  | reservedBits
  /-- A field that the opcode does not use is not 0 (R132). -/
  | unusedField
deriving DecidableEq, Repr

/-- OPC, bits 7:0 (R131). -/
def fieldOpc (w : Word) : BitVec 8 := w.extractLsb' 0 8

/-- BKT, bits 11:8 (R131). -/
def fieldBkt (w : Word) : Bucket := w.extractLsb' 8 4

/-- PRF, bit 12 (R131). -/
def fieldPrf (w : Word) : Bool := w.getLsbD 12

/-- CNJ, bit 13 (R131). -/
def fieldCnj (w : Word) : Bool := w.getLsbD 13

/-- RSV, bits 31:14 (R131). -/
def fieldRsv (w : Word) : BitVec 18 := w.extractLsb' 14 18

/-- PRF = 0 selects PROF0 (R131). -/
def profileOfBit (p : Bool) : Profile := if p then .prof1 else .prof0

/-- The bit that selects a profile (R131). -/
def bitOfProfile : Profile → Bool
  | .prof0 => false
  | .prof1 => true

/-- A command that uses no field: BKT, PRF and CNJ must be 0 (R132). -/
def decodePlain (w : Word) (i : Instr) : Except Illegal Instr :=
  if fieldBkt w = 0 ∧ fieldPrf w = false ∧ fieldCnj w = false then .ok i else .error .unusedField

/-- A command that uses BKT: PRF and CNJ must be 0 (R132). -/
def decodeBkt (w : Word) (i : Bucket → Instr) : Except Illegal Instr :=
  if fieldPrf w = false ∧ fieldCnj w = false then .ok (i (fieldBkt w)) else .error .unusedField

/-- A command that uses PRF: BKT and CNJ must be 0 (R132). -/
def decodePrf (w : Word) (i : Profile → Instr) : Except Illegal Instr :=
  if fieldBkt w = 0 ∧ fieldCnj w = false then .ok (i (profileOfBit (fieldPrf w))) else .error .unusedField

/-- A command that uses CNJ: BKT and PRF must be 0 (R132). -/
def decodeCnj (w : Word) (i : Bool → Instr) : Except Illegal Instr :=
  if fieldBkt w = 0 ∧ fieldPrf w = false then .ok (i (fieldCnj w)) else .error .unusedField

/-- The opcode map by OPC, for a word whose RSV is 0 (R135). -/
def decodeOpc (w : Word) : Except Illegal Instr :=
  match (fieldOpc w).toNat with
  | 0x00 => decodePlain w .nop
  | 0x01 => decodePlain w .srst
  | 0x02 => decodePlain w .prst
  | 0x10 => decodeBkt w .cdf
  | 0x11 => decodeBkt w .freq
  | 0x12 => decodeBkt w .icdf
  | 0x13 => decodePlain w .v2b
  | 0x14 => decodePlain w .b2v
  | 0x15 => decodePlain w .scalebits
  | 0x20 => decodeCnj w .qmul
  | 0x21 => decodePlain w .qexp
  | 0x30 => decodePlain w .encInit
  | 0x31 => decodePlain w .encSym
  | 0x32 => decodeBkt w .encSymb
  | 0x33 => decodePlain w .encFlush
  | 0x38 => decodePlain w .decInit
  | 0x39 => decodePlain w .decVal
  | 0x3A => decodePlain w .decConsume
  | 0x3B => decodeBkt w .decSymb
  | 0x40 => decodePlain w .predict
  | 0x41 => decodePrf w .quant
  | 0x42 => decodePrf w .dequant
  | 0x43 => decodePlain w .classify
  | 0x44 => decodePlain w .vupd
  | 0x50 => decodePrf w .compress
  | 0x51 => decodePlain w .decompress
  | _ => .error (.unassignedOpcode (fieldOpc w))

/-- The command a word stands for, or why it is illegal (R132, R137). -/
def decode (w : Word) : Except Illegal Instr :=
  if fieldRsv w = 0 then decodeOpc w else .error .reservedBits

/-- `b << 8` (R136). -/
def placeBkt (b : Bucket) : Word := b.setWidth 32 <<< 8

/-- `p << 12` (R136). -/
def placePrf (p : Profile) : Word := (BitVec.ofBool (bitOfProfile p)).setWidth 32 <<< 12

/-- `c << 13` (R136). -/
def placeCnj (c : Bool) : Word := (BitVec.ofBool c).setWidth 32 <<< 13

/-- "The word for a command is match OR (b << 8) OR (p << 12) OR (c << 13)" (R136), with match from R135. -/
def encode : Instr → Word
  | .nop => 0x00000000#32
  | .srst => 0x00000001#32
  | .prst => 0x00000002#32
  | .cdf b => 0x00000010#32 ||| placeBkt b
  | .freq b => 0x00000011#32 ||| placeBkt b
  | .icdf b => 0x00000012#32 ||| placeBkt b
  | .v2b => 0x00000013#32
  | .b2v => 0x00000014#32
  | .scalebits => 0x00000015#32
  | .qmul c => 0x00000020#32 ||| placeCnj c
  | .qexp => 0x00000021#32
  | .encInit => 0x00000030#32
  | .encSym => 0x00000031#32
  | .encSymb b => 0x00000032#32 ||| placeBkt b
  | .encFlush => 0x00000033#32
  | .decInit => 0x00000038#32
  | .decVal => 0x00000039#32
  | .decConsume => 0x0000003A#32
  | .decSymb b => 0x0000003B#32 ||| placeBkt b
  | .predict => 0x00000040#32
  | .quant p => 0x00000041#32 ||| placePrf p
  | .dequant p => 0x00000042#32 ||| placePrf p
  | .classify => 0x00000043#32
  | .vupd => 0x00000044#32
  | .compress p => 0x00000050#32 ||| placePrf p
  | .decompress => 0x00000051#32

/-- The command word of a row of spec/opcode_table.json whose `nbits` bits are `w`; bits above `nbits` are 0. The word reaches
the core as one 32-bit write to CMD (R130), so it is given to `decode` as it is, and bits above 31 make no command word. -/
def commandWordOfRow (nbits w : Nat) : Nat := w % 2 ^ nbits

/-- What the decoder reads from an opcode-table word (the host's question). -/
def decodeTableWord (nbits w : Nat) : Option Instr :=
  if commandWordOfRow nbits w < 2 ^ 32 then (decode (BitVec.ofNat 32 (commandWordOfRow nbits w))).toOption else none

end Sys2Proof
end

