-- ==== Sys2Proof/Config.lean ====
section
/-! DEFINITION. The implementation parameters of 00_scope.md R10, and the FREE VALUES: what the spec leaves to "any value".
A free value is a constant without a body, so no proof can see what it is; the log entry named at each says where it is used.
The instance parameters BUF_SIZE and BASE_ADDR are fields of the machine's state (constant in every step), so that a claim
over all states holds for every instance. -/

namespace Sys2Proof
namespace Config

/-- ID, "which is ASCII EBN1" (R3, R31). -/
def idValue : Word := 0x45424E31#32

/-- BUF_SIZE: "default 65536" (R10, R80). -/
def bufSizeDefault : Nat := 65536

/-- BUF_SIZE: "range of [1, 2^20]" (R10, R80). -/
def bufSizeMax : Nat := 2 ^ 20

/-- TOTAL, the frequency mass 2^15, and SCALE_BITS (R10, R11). -/
def scaleBits : Nat := 15
def total : Nat := 32768

/-- RC_TOP, the renormalisation threshold 2^24 (R10). -/
def rcTop : Nat := 2 ^ 24

/-- QFRAC, the fractional bits of a quaternion component (R10), and 1.0 in Q2.30. -/
def qFrac : Nat := 30
def one : Word := 0x40000000#32

/-- PROF0_RESET, PROF1_RESET (R10). -/
def prof0Reset : Fin 31 := 14
def prof1Reset : Fin 31 := 10

/-- VAR_RESET, 2^-6 in UQ16.16 (R10), and VAR_SHIFT, the smoothing shift K (R10). -/
def varReset : Word := 0x00000400#32
def varShift : Nat := 4

/-- FREE VALUE (70_reset_and_hazards.md R450, R451; log entry 2). What BUF byte `addr` holds when nothing has written it since
the last reset: "unspecified: each byte holds an arbitrary value in [0, 255]". The first argument counts resets, so the
contents after one reset say nothing of the contents after another. -/
opaque unwrittenByte : (resets : Nat) → (addr : Nat) → Byte

/-- FREE VALUE (10_state.md R55; log entry 3). What the n-th host read, while BUSY = 1, of a register the engine writes
returns: "an unspecified 32-bit value. A model gives the read a free draw." -/
opaque busyRead : (draw : Nat) → Word

/-- FREE VALUE (43_range_coder.md R292; log entry 4). The quotient DEC_CODE / r for r = 0, which the spec does not define and
which no run reaches (R273 keeps r ≥ 2^9 while DEC_STATE = ACTIVE). -/
opaque quotientByZero : (code : Word) → Nat

end Config
end Sys2Proof
end

