-- ==== Sys2Proof/Machine/State.lean ====
section
/-! DEFINITION. The architectural state of the core (10_state.md), the host's accesses to it as plain data, the reasons a step
can stop, and the state after reset (70_reset_and_hazards.md R450). -/

namespace Sys2Proof
namespace Machine

/-- The error codes of STATUS.ERRCODE (60_exceptions.md R400). Code 4 is "reserved and never raised" (R405); codes 10 to 255
are "never raised" and have no constructor. -/
inductive ErrorCode where
  | none
  | quantOverflow
  | outputExhausted
  | scratchTooSmall
  | modelInvariant
  | illegalCommand
  | badArgument
  | inputExhausted
  | badHeader
  | coderNotReady
deriving DecidableEq, Repr

/-- STATUS.ENC_STATE: "0 IDLE, 1 ACTIVE, 2 FLUSHED, 3 FAILED" (R33, R270). -/
inductive EncState where
  | idle
  | active
  | flushed
  | failed
deriving DecidableEq, Repr

/-- STATUS.DEC_STATE: "0 IDLE, 1 ACTIVE, 2 reserved (never produced), 3 FAILED" (R33, R270). -/
inductive DecState where
  | idle
  | active
  | failed
deriving DecidableEq, Repr

/-- The fields of STATUS that are stored here (R33): BUSY, DONE, ERR, OVR and ERRCODE. ENC_STATE and DEC_STATE are stored with
the encoder and the decoder. The reserved bits read 0 and are not stored. -/
structure Status where
  busy : Bool
  done : Bool
  err : Bool
  ovr : Bool
  errcode : ErrorCode
deriving DecidableEq, Repr

/-- INT_EN: bit 0 is DONE_IE, bit 1 is ERR_IE; bits 31:2 read 0 and are not stored (R39). -/
structure IntEn where
  doneIe : Bool
  errIe : Bool
deriving DecidableEq, Repr

/-- The range encoder: the 33-bit `low` (R44), ENC_RANGE (R45), ENC_CACHE and ENC_CSIZE (R46), the output region (R47) and
STATUS.ENC_STATE (R38). -/
structure Encoder where
  low : BitVec 33
  range : Word
  cache : Byte
  csize : Word
  outBase : Word
  outPtr : Word
  outEnd : Word
  state : EncState
deriving DecidableEq, Repr

/-- The range decoder: DEC_CODE and DEC_RANGE (R48), the input region (R49) and STATUS.DEC_STATE (R38). -/
structure Decoder where
  code : Word
  range : Word
  inBase : Word
  inPtr : Word
  inEnd : Word
  state : DecState
deriving DecidableEq, Repr

/-- A predictor state: P1 and P2, four s32 in Q2.30 each (R50), and VAR, four u32 in UQ16.16 (R51). The committed state is one
of these, and so is the working copy W that a running COMPRESS or DECOMPRESS keeps (R60). -/
structure Predictor where
  p1 : Quad Word
  p2 : Quad Word
  var : Quad Word
deriving DecidableEq, Repr

/-- BUF (20_memory.md R80): BUF_SIZE, the bytes written since the last reset as (address, byte) pairs with strictly rising
addresses, and how many resets there have been (the MODEL's own field: it selects the unspecified contents of the bytes that
nothing has written since, `Config.unwrittenByte`; log entry 2). -/
structure Buf where
  size : Nat
  cells : List Host.Cell
  resets : Nat
deriving DecidableEq, Repr

/-- What reaches the core from outside, one event at a time. `read` and `write` are host bus accesses (20_memory.md R88, R89):
their width in bytes, their bus address and the value written. `reset` is the reset input (R450). `engine` is no event of the
host: it says that the running command completes before the host's next access (R470: the time from acceptance to completion
is "unspecified and finite"; log entry 5). -/
inductive Input where
  | read (width addr : Nat)
  | write (width addr : Nat) (value : Word)
  | reset
  | engine
deriving DecidableEq, Repr

/-- The whole machine. `rdata`, `draws` and `inputs` are the MODEL's own fields (log entries 1, 3, 5): the value the last host
read returned, how many free values host reads have drawn, and what has yet to reach the core from outside, oldest first. -/
structure State where
  status : Status
  intEn : IntEn
  prof0 : Fin 31
  prof1 : Fin 31
  argLo : Quad Word
  argHi : Quad Word
  result : Quad Word
  errSample : Word
  errChan : Word
  enc : Encoder
  dec : Decoder
  pred : Predictor
  latch : Word
  buf : Buf
  baseAddr : Nat
  rdata : Word
  draws : Nat
  inputs : List Input
deriving DecidableEq, Repr

/-- Why the machine stops with a fault. -/
inductive Fault where
  /-- The engine accesses BUF at an address outside [0, BUF_SIZE), which does not exist (20_memory.md R80). Raised by the BUF
  operations of the range coder and of the block commands. Safe: R47 and R49 keep every access of a reachable state inside BUF
  (`Safety.Inv`), so only a state that no run reaches can raise it. -/
  | noSuchBufByte (addr : Nat)
deriving DecidableEq, Repr

/-- Why the machine refuses to step. -/
inductive Refusal where
  /-- An instruction without a meaning. No arm of `exec` answers it. Safe. -/
  | notModelled (mnemonic : String)
  /-- A host access to the register window that is not 32 bits wide at a multiple of 4: "outside this spec: a model refuses it
  and gives it no step" (20_memory.md R88). Raised by a host access. Safe. -/
  | registerAccess (width addr : Nat)
  /-- A host access to BUF that is misaligned, not 1, 2 or 4 bytes wide, or straddles BUF_SIZE: "a model refuses it"
  (20_memory.md R89). Raised by a host access. Safe. -/
  | bufAccess (width addr : Nat)
  /-- A host access to BUF while BUSY = 1: "A model gives a host BUF access during BUSY no step" (20_memory.md R90). Raised by a
  host access. Safe. -/
  | bufAccessWhileBusy (addr : Nat)
deriving DecidableEq, Repr

/-- The outcome of one step of this machine. -/
abbrev Result := Host.Outcome State Fault Refusal

/-- "the identity quaternion (0x40000000, 0, 0, 0)" (R50). -/
def identity : Quad Word := ⟨Config.one, 0#32, 0#32, 0#32⟩

/-- The stream-start predictor state (40_control.md R176). -/
def Predictor.start : Predictor := { p1 := identity, p2 := identity, var := Quad.all Config.varReset }

/-- STATUS after reset: 0x00000000 (R450). -/
def Status.reset : Status := { busy := false, done := false, err := false, ovr := false, errcode := .none }

/-- The encoder after reset (R450). -/
def Encoder.reset : Encoder :=
  { low := 0#33, range := 0xFFFFFFFF#32, cache := 0#8, csize := 1#32, outBase := 0#32, outPtr := 0#32, outEnd := 0#32, state := .idle }

/-- The decoder after reset (R450). -/
def Decoder.reset : Decoder :=
  { code := 0#32, range := 0xFFFFFFFF#32, inBase := 0#32, inPtr := 0#32, inEnd := 0#32, state := .idle }

/-- The machine right after reset (R450), with the default BUF_SIZE (R10), BASE_ADDR 0 and nothing from outside waiting. The
latch is "invalid or absent" after reset; it holds 0 here and is not read while BUSY = 0 (log entry 6). -/
def State.reset : State :=
  { status := Status.reset
    intEn := { doneIe := false, errIe := false }
    prof0 := Config.prof0Reset
    prof1 := Config.prof1Reset
    argLo := Quad.all 0#32
    argHi := Quad.all 0#32
    result := Quad.all 0#32
    errSample := 0#32
    errChan := 0#32
    enc := Encoder.reset
    dec := Decoder.reset
    pred := Predictor.start
    latch := 0#32
    buf := { size := Config.bufSizeDefault, cells := [], resets := 0 }
    baseAddr := 0
    rdata := 0#32
    draws := 0
    inputs := [] }

end Machine
end Sys2Proof
end

