-- ==== Sys2Proof/Machine/Flags.lean ====
section
/-! DEFINITION. The flags: STATUS as the host reads it and what its W1C bits do (10_state.md R33 to R38), INT_EN as the host
reads and writes it (R39), and the interrupt output (R63). "The only flags are the STATUS fields of rule R33" (R57). -/

namespace Sys2Proof
namespace Machine

/-- The number of an error code (60_exceptions.md R400). -/
def errorNumber : ErrorCode → BitVec 8
  | .none => 0#8
  | .quantOverflow => 1#8
  | .outputExhausted => 2#8
  | .scratchTooSmall => 3#8
  | .modelInvariant => 4#8
  | .illegalCommand => 5#8
  | .badArgument => 6#8
  | .inputExhausted => 7#8
  | .badHeader => 8#8
  | .coderNotReady => 9#8

/-- The number of an encoder state (R33). -/
def encStateNumber : EncState → BitVec 2
  | .idle => 0#2
  | .active => 1#2
  | .flushed => 2#2
  | .failed => 3#2

/-- The number of a decoder state (R33): 2 is never produced. -/
def decStateNumber : DecState → BitVec 2
  | .idle => 0#2
  | .active => 1#2
  | .failed => 3#2

/-- STATUS as the host reads it: bits 31:20 reserved, 19:18 DEC_STATE, 17:16 ENC_STATE, 15:8 ERRCODE, 7:4 reserved, 3 OVR,
2 ERR, 1 DONE, 0 BUSY (R33). -/
def State.statusWord (s : State) : Word :=
  0#12 ++ decStateNumber s.dec.state ++ encStateNumber s.enc.state ++ errorNumber s.status.errcode ++ 0#4
    ++ BitVec.ofBool s.status.ovr ++ BitVec.ofBool s.status.err ++ BitVec.ofBool s.status.done ++ BitVec.ofBool s.status.busy

/-- A host write of `w` to STATUS while BUSY = 0: bit 1 clears DONE (R35), bit 2 clears ERR and sets ERRCODE to 0 (R36), bit 3
clears OVR (R37); every other bit is ignored (R53). -/
def Status.writeOneToClear (st : Status) (w : Word) : Status :=
  { st with
    done := st.done && !w.getLsbD 1
    err := st.err && !w.getLsbD 2
    errcode := if w.getLsbD 2 then .none else st.errcode
    ovr := st.ovr && !w.getLsbD 3 }

/-- INT_EN as the host reads it (R39). -/
def IntEn.word (e : IntEn) : Word := 0#30 ++ BitVec.ofBool e.errIe ++ BitVec.ofBool e.doneIe

/-- INT_EN as a host write of `w` leaves it: bits 31:2 are ignored (R39). -/
def IntEn.ofWord (w : Word) : IntEn := { doneIe := w.getLsbD 0, errIe := w.getLsbD 1 }

/-- `irq = (STATUS.DONE and INT_EN.DONE_IE) or (STATUS.ERR and INT_EN.ERR_IE)`, a level with "no other state" (R63, R410). -/
def State.irq (s : State) : Bool := (s.status.done && s.intEn.doneIe) || (s.status.err && s.intEn.errIe)

end Machine
end Sys2Proof
end

