-- ==== Sys2Proof/Machine/Operands.lean ====
section
/-! DEFINITION. The arithmetic of the spec's pseudocode (00_scope.md R12 to R16) and the operands of a command (30_encoding.md
R133, R134). Arithmetic is exact in ℤ; a value wraps or saturates only where a rule says so, here by `toWord`, `sat32` and
`clamp`. -/

namespace Sys2Proof
namespace Machine

/-- `u32(v)`, "v mod 2^32", as a register value (R13): what a RESULT register or a u32 register takes from an integer. -/
def toWord (v : Int) : Word := BitVec.ofInt 32 v

/-- `sext_32` of a register: its value read as s32 (R13, R133). -/
def s32 (w : Word) : Int := w.toInt

/-- `sext_8` of a byte (R13, R87). -/
def s8 (v : Byte) : Int := v.toInt

/-- A register read as u32 (R133). -/
def u32 (w : Word) : Nat := w.toNat

/-- `a >> k`, "floor(a / 2^k), which is an arithmetic shift for negative a" (R14). -/
def asr (a : Int) (k : Nat) : Int := a / 2 ^ k

/-- `clamp(v, lo, hi)`, "min(max(v, lo), hi)" (R14). -/
def clamp (v lo hi : Int) : Int := min (max v lo) hi

/-- `sat32(v)`, "clamp(v, -2^31, 2^31 - 1)" (R14). -/
def sat32 (v : Int) : Int := clamp v (-2 ^ 31) (2 ^ 31 - 1)

/-- `msb(v)` for v > 0, "the index of the most significant set bit" (R14). -/
def msb (v : Nat) : Nat := Nat.log2 v

/-- A Symbol: "range [−128,127]" (R18). -/
def isSymbol (q : Int) : Bool := decide (-128 ≤ q) && decide (q ≤ 127)

/-- A quaternion's four components read as s32 (R240). -/
def quatOf (q : Quad Word) : Quad Int := q.map s32

/-- `u32(v)` of each component, as RESULT and the predictor registers take a quaternion. -/
def wordsOf (q : Quad Int) : Quad Word := q.map toWord

/-- ARG0 to ARG5 by number, as COMPRESS and DECOMPRESS name them (R134), read as u32; ARG0 to ARG3 are `argLo`, ARG4 to ARG7
`argHi`. -/
def State.argU (s : State) : Fin 8 → Nat
  | 0 => u32 s.argLo.c0
  | 1 => u32 s.argLo.c1
  | 2 => u32 s.argLo.c2
  | 3 => u32 s.argLo.c3
  | 4 => u32 s.argHi.c0
  | 5 => u32 s.argHi.c1
  | 6 => u32 s.argHi.c2
  | 7 => u32 s.argHi.c3

/-- ARGi read as s32 (R133). -/
def State.argS (s : State) : Fin 8 → Int
  | 0 => s32 s.argLo.c0
  | 1 => s32 s.argLo.c1
  | 2 => s32 s.argLo.c2
  | 3 => s32 s.argLo.c3
  | 4 => s32 s.argHi.c0
  | 5 => s32 s.argHi.c1
  | 6 => s32 s.argHi.c2
  | 7 => s32 s.argHi.c3

/-- The profile value F: "F = PROF0 if word[12] = 0, and F = PROF1 if word[12] = 1. The engine reads the PROF register when the
command runs." (R133) -/
def State.profile (s : State) : Profile → Nat
  | .prof0 => s.prof0.val
  | .prof1 => s.prof1.val

end Machine
end Sys2Proof
end

