-- ==== Sys2Proof/Machine/Ops.lean ====
section
/-! DEFINITION. The named operations over memory and registers: BUF (20_memory.md R80 to R91), the acceptance of a command, its
success and its error completion (60_exceptions.md R401 to R404: an error completion is "the whole of its trap", R407, and there
is no return from one, R408), the reset input (70_reset_and_hazards.md R450, R451), and how a command's computation, which may
raise an error part way, becomes an outcome. -/

namespace Sys2Proof
namespace Machine

/-! ## BUF -/

/-- The byte that a list of cells holds at an address, if it holds one. -/
def findCell : List Host.Cell → Nat → Option Byte
  | [], _ => none
  | (a, v) :: rest, addr => if a = addr then some v else findCell rest addr

/-- Store a byte in a list of cells, keeping the addresses strictly rising. -/
def storeCell : List Host.Cell → Nat → Byte → List Host.Cell
  | [], addr, v => [(addr, v)]
  | (a, x) :: rest, addr, v =>
    if addr < a then (addr, v) :: (a, x) :: rest
    else if addr = a then (addr, v) :: rest
    else (a, x) :: storeCell rest addr v

/-- What an address that holds no stored byte reads as: the free value of R450 (log entry 2). The ONE place that says so. -/
def Buf.unlisted (m : Buf) (addr : Nat) : Byte := Config.unwrittenByte m.resets addr

/-- The byte at an address of BUF, by the model's reading of one byte. -/
def Buf.byte (m : Buf) (addr : Nat) : Byte := (findCell m.cells addr).getD (m.unlisted addr)

/-- Read one byte; `none` at an address that does not exist (R80). -/
def Buf.load (m : Buf) (addr : Nat) : Option Byte := if addr < m.size then some (m.byte addr) else none

/-- Write one byte: "Writes change only the location written" (R93); `none` at an address that does not exist (R80). -/
def Buf.store (m : Buf) (addr : Nat) (v : Byte) : Option Buf :=
  if addr < m.size then some { m with cells := storeCell m.cells addr v } else none

/-- `MemRead(a, n)`: the n bytes from a, "combined little-endian into an unsigned integer" (R15, R84). -/
def memRead (m : Buf) (a : Nat) : Nat → Option Nat
  | 0 => some 0
  | n + 1 => (m.load a).bind fun lo => (memRead m (a + 1) n).map fun hi => lo.toNat + 256 * hi

/-- `MemWrite(a, n, v)`: the n low bytes of v, the least significant at a (R15, R85). -/
def memWrite (m : Buf) (a : Nat) : Nat → Nat → Option Buf
  | 0, _ => some m
  | n + 1, v => (m.store a (BitVec.ofNat 8 v)).bind fun m' => memWrite m' (a + 1) n (v / 256)

/-- The canonical form of the stored bytes: addresses strictly rising and all inside BUF. An address without a stored byte
holds no value of the model's, so no entry can repeat one. -/
def cellsWf (size : Nat) : List Host.Cell → Bool
  | [] => true
  | [(a, _)] => decide (a < size)
  | (a, _) :: (b, y) :: rest => decide (a < b) && cellsWf size ((b, y) :: rest)

/-- BUF is in canonical form. -/
def Buf.wf (m : Buf) : Bool := cellsWf m.size m.cells

/-! ## Regions -/

/-- A region: "a byte range [addr, addr+len) of BUF named by a command's operands" (R18). -/
structure Region where
  addr : Nat
  len : Nat
deriving DecidableEq, Repr

/-- `address + length <= BUF_SIZE`, computed in ℤ (R271, R360). -/
def Region.inBuf (size : Nat) (r : Region) : Bool := decide (r.addr + r.len ≤ size)

/-- "Regions [a, a+l) and [b, b+m) overlap when l > 0, m > 0, a < b + m and b < a + l." (R360) -/
def Region.overlaps (r t : Region) : Bool :=
  decide (0 < r.len) && decide (0 < t.len) && decide (r.addr < t.addr + t.len) && decide (t.addr < r.addr + r.len)

/-- No two of the regions overlap (R360). -/
def disjointRegions : List Region → Bool
  | [] => true
  | r :: rest => rest.all (fun t => !r.overlaps t) && disjointRegions rest

/-- The block region check of R360. -/
def regionCheck (size : Nat) (rs : List Region) : Bool := rs.all (·.inBuf size) && disjointRegions rs

/-! ## Updates of the state -/

/-- Replace what has yet to reach the core from outside. -/
def State.withInputs (s : State) (l : List Input) : State := { s with inputs := l }

/-- Replace BUF. -/
def State.withBuf (s : State) (m : Buf) : State := { s with buf := m }

/-- Replace the encoder. -/
def State.withEnc (s : State) (e : Encoder) : State := { s with enc := e }

/-- Replace the decoder. -/
def State.withDec (s : State) (d : Decoder) : State := { s with dec := d }

/-- Replace the committed predictor state (R64). -/
def State.withPred (s : State) (p : Predictor) : State := { s with pred := p }

/-- Write RESULT0 to RESULT3 (R42). -/
def State.withResult (s : State) (r : Quad Word) : State := { s with result := r }

/-- Write RESULT0 only: "The RESULT registers the command wrote keep their values; the ones it did not write keep their earlier
values" (R403). -/
def State.withResult0 (s : State) (v : Word) : State := s.withResult { s.result with c0 := v }

/-- Write RESULT0 and RESULT1. -/
def State.withResult01 (s : State) (v0 v1 : Word) : State := s.withResult { s.result with c0 := v0, c1 := v1 }

/-- Write RESULT0, RESULT1 and RESULT2. -/
def State.withResult012 (s : State) (v0 v1 v2 : Word) : State := s.withResult { s.result with c0 := v0, c1 := v1, c2 := v2 }

/-- Set STATUS.OVR (R37, R54). -/
def State.markOverrun (s : State) : State := { s with status := { s.status with ovr := true } }

/-- Record what a host read returned. -/
def State.returnToHost (s : State) (v : Word) : State := { s with rdata := v }

/-! ## Acceptance and completion -/

/-- The acceptance of a command word: `latch <- w ; BUSY <- 1 ; DONE <- 0 ; ERR <- 0 ; ERRCODE <- 0` (R401). -/
def State.accept (s : State) (w : Word) : State :=
  { s with latch := w, status := { s.status with busy := true, done := false, err := false, errcode := .none } }

/-- A success completion: `BUSY <- 0 ; DONE <- 1` (R403). -/
def State.complete (s : State) : State := { s with status := { s.status with busy := false, done := true } }

/-- The `sample` and `chan` arguments of a `raise` (R15, R43). -/
structure Site where
  sample : Word
  chan : Word
deriving DecidableEq, Repr

/-- 0xFFFFFFFF, which "means not applicable" (R43). -/
def notApplicable : Word := 0xFFFFFFFF#32

/-- (n/a, n/a). -/
def Site.na : Site := ⟨notApplicable, notApplicable⟩

/-- (n/a, c). -/
def Site.ofChannel (c : Fin 4) : Site := ⟨notApplicable, BitVec.ofNat 32 c.val⟩

/-- (i, n/a). -/
def Site.ofSample (i : Nat) : Site := ⟨BitVec.ofNat 32 i, notApplicable⟩

/-- (i, c). -/
def Site.ofSymbol (i : Nat) (c : Fin 4) : Site := ⟨BitVec.ofNat 32 i, BitVec.ofNat 32 c.val⟩

/-- An error completion, TAKING THE EXCEPTION: `ERR_SAMPLE <- s ; ERR_CHAN <- c ; ERRCODE <- code of E ; ERR <- 1 ; BUSY <- 0 ;
DONE <- 1`. "Every register and BUF byte it wrote before the raise keeps the written value. Nothing is rolled back. No RESULT
register is written." (R404) No program counter or mode is saved, because there is none (R407). -/
def State.raiseError (s : State) (e : ErrorCode) (site : Site) : State :=
  { s with
    errSample := site.sample
    errChan := site.chan
    status := { s.status with busy := false, done := true, err := true, errcode := e } }

/-- `complete` as a command's outcome (R15). -/
def succeed (s : State) : Result := .next s.complete

/-- `raise E(s, c)` as a command's outcome (R15). -/
def failWith (e : ErrorCode) (site : Site) (s : State) : Result := .next (s.raiseError e site)

/-- Why a computation over a part π of the state ends early: it raises an error with π as it stands at the raise (R404), or it
meets a BUF address that does not exist. -/
inductive Stop (π : Type) where
  | raised (e : ErrorCode) (site : Site) (p : π)
  | noByte (addr : Nat)
deriving Repr

/-- The same stop, of a computation over a larger part of the state. -/
def Stop.map {π ρ : Type} (f : π → ρ) : Stop π → Stop ρ
  | .raised e site p => .raised e site (f p)
  | .noByte a => .noByte a

/-- A computation over a smaller part of the state, inside one over a larger part. -/
def liftStop {π ρ α : Type} (f : π → ρ) : Except (Stop π) α → Except (Stop ρ) α
  | .ok a => .ok a
  | .error e => .error (e.map f)

/-- The value of a BUF access, or the stop for an address that does not exist. -/
def orNoByte {π α : Type} (addr : Nat) : Option α → Except (Stop π) α
  | some a => .ok a
  | none => .error (.noByte addr)

/-- The outcome of a command whose computation is over a part π of the state: it completes with `ok`, or takes the error it
raised with `put` storing π as it stood at the raise. -/
def outcomeOf {π α : Type} (put : π → State) (ok : α → State) : Except (Stop π) α → Result
  | .ok a => succeed (ok a)
  | .error (.raised e site p) => failWith e site (put p)
  | .error (.noByte a) => .fault (.noSuchBufByte a)

/-! ## Reset -/

/-- The reset input: the state of R450 "whatever it was doing before". BUF is "unspecified after any reset" (R451). BUF_SIZE and
BASE_ADDR are the instance's own, and what waits outside the core is not the core's to reset. -/
def State.resetInput (s : State) : State :=
  { State.reset with
    buf := { size := s.buf.size, cells := [], resets := s.buf.resets + 1 }
    baseAddr := s.baseAddr
    rdata := s.rdata
    draws := s.draws
    inputs := s.inputs }

/-- What SRST does before it completes: "for every register r of 10_state.md R58 other than STATUS: r <- reset value of r ;
STATUS.ENC_STATE <- 0 ; STATUS.DEC_STATE <- 0 ; STATUS.OVR <- 0"; "BUF is not changed" (40_control.md R172). -/
def State.softReset (s : State) : State :=
  { State.reset with
    status := { s.status with ovr := false }
    latch := s.latch
    buf := s.buf
    baseAddr := s.baseAddr
    rdata := s.rdata
    draws := s.draws
    inputs := s.inputs }

end Machine
end Sys2Proof
end

