-- ==== Sys2Proof/Machine/Quaternion.lean ====
section
/-! DEFINITION. The fixed-point quaternion functions and commands (42_quaternion.md). A quaternion's elements c0 to c3 are its
components w, x, y and z (R240). -/

namespace Sys2Proof
namespace Machine

/-- `b' = (b_w, −b_x, −b_y, −b_z)`; "The negation is exact in ℤ" (R242). -/
def conjugate (b : Quad Int) : Quad Int := ⟨b.c0, -b.c1, -b.c2, -b.c3⟩

/-- The exact Hamilton product, the four `acc` of R242. -/
def hamilton (a b : Quad Int) : Quad Int :=
  ⟨a.c0 * b.c0 - a.c1 * b.c1 - a.c2 * b.c2 - a.c3 * b.c3,
   a.c0 * b.c1 + a.c1 * b.c0 + a.c2 * b.c3 - a.c3 * b.c2,
   a.c0 * b.c2 - a.c1 * b.c3 + a.c2 * b.c0 + a.c3 * b.c1,
   a.c0 * b.c3 + a.c1 * b.c2 - a.c2 * b.c1 + a.c3 * b.c0⟩

/-- `sat32((acc + 2^29) >> 30)`: to nearest, ties toward +∞, then saturated (R242). -/
def roundQ60 (acc : Int) : Int := sat32 (asr (acc + 2 ^ 29) 30)

/-- `qmul_fn(a, b, cnj)` (R242). -/
def qmulFn (a b : Quad Int) (cnj : Bool) : Quad Int := (hamilton a (if cnj then conjugate b else b)).map roundQ60

/-- `qexp_fn(v)`: `h_k = v_k >> 1`, `s = h_x^2 + h_y^2 + h_z^2`, `w = 2^30 - ((s + 2^30) >> 31)`, result `(sat32(w), h_x, h_y,
h_z)` (R244). -/
def qexpFn (vx vy vz : Int) : Quad Int :=
  let hx := asr vx 1
  let hy := asr vy 1
  let hz := asr vz 1
  let sum := hx ^ 2 + hy ^ 2 + hz ^ 2
  ⟨sat32 (2 ^ 30 - asr (sum + 2 ^ 30) 31), hx, hy, hz⟩

/-- QMUL: a in ARG0 to ARG3, b in ARG4 to ARG7, `r <- qmul_fn(a, b, cnj)` (R241). -/
def execQmul (cnj : Bool) (s : State) : Result :=
  succeed (s.withResult (wordsOf (qmulFn (quatOf s.argLo) (quatOf s.argHi) cnj)))

/-- QEXP: v in ARG0 to ARG2, `r <- qexp_fn(v)` (R243). -/
def execQexp (s : State) : Result := succeed (s.withResult (wordsOf (qexpFn (s.argS 0) (s.argS 1) (s.argS 2))))

end Machine
end Sys2Proof
end

