-- ==== Sys2Proof/Machine/Rom.lean ====
section
/-! DEFINITION. The CDF ROM (20_memory.md R94 to R98), as the listing of R98: 16 tables of 257 entries, sixteen entries a row
as the spec prints them, and the integer construction of R96 from the constants of R97, of which the listing "is the result"
(Sys2Proof/Laws/Rom.lean; "a model may use either"). -/

namespace Sys2Proof
namespace Machine

/-- Table 0 (R98). -/
def romTable0 : List (List Nat) :=
  [ [0, 1, 2, 3, 4, 5, 6, 7, 8, 9, 10, 11, 12, 13, 14, 15],
    [16, 17, 18, 19, 20, 21, 22, 23, 24, 25, 26, 27, 28, 29, 30, 31],
    [32, 33, 34, 35, 36, 37, 38, 39, 40, 41, 42, 43, 44, 45, 46, 47],
    [48, 49, 50, 51, 52, 53, 54, 55, 56, 57, 58, 59, 60, 61, 62, 63],
    [64, 65, 66, 67, 68, 69, 70, 71, 72, 73, 74, 75, 76, 77, 78, 79],
    [80, 81, 82, 83, 84, 85, 86, 87, 88, 89, 90, 91, 92, 93, 94, 95],
    [96, 97, 98, 99, 100, 101, 102, 103, 104, 105, 106, 107, 108, 109, 110, 111],
    [112, 113, 114, 115, 116, 117, 118, 119, 120, 121, 122, 123, 124, 125, 126, 127],
    [128, 32641, 32642, 32643, 32644, 32645, 32646, 32647, 32648, 32649, 32650, 32651, 32652, 32653, 32654, 32655],
    [32656, 32657, 32658, 32659, 32660, 32661, 32662, 32663, 32664, 32665, 32666, 32667, 32668, 32669, 32670, 32671],
    [32672, 32673, 32674, 32675, 32676, 32677, 32678, 32679, 32680, 32681, 32682, 32683, 32684, 32685, 32686, 32687],
    [32688, 32689, 32690, 32691, 32692, 32693, 32694, 32695, 32696, 32697, 32698, 32699, 32700, 32701, 32702, 32703],
    [32704, 32705, 32706, 32707, 32708, 32709, 32710, 32711, 32712, 32713, 32714, 32715, 32716, 32717, 32718, 32719],
    [32720, 32721, 32722, 32723, 32724, 32725, 32726, 32727, 32728, 32729, 32730, 32731, 32732, 32733, 32734, 32735],
    [32736, 32737, 32738, 32739, 32740, 32741, 32742, 32743, 32744, 32745, 32746, 32747, 32748, 32749, 32750, 32751],
    [32752, 32753, 32754, 32755, 32756, 32757, 32758, 32759, 32760, 32761, 32762, 32763, 32764, 32765, 32766, 32767],
    [32768] ]

/-- Table 1 (R98). -/
def romTable1 : List (List Nat) :=
  [ [0, 1, 2, 3, 4, 5, 6, 7, 8, 9, 10, 11, 12, 13, 14, 15],
    [16, 17, 18, 19, 20, 21, 22, 23, 24, 25, 26, 27, 28, 29, 30, 31],
    [32, 33, 34, 35, 36, 37, 38, 39, 40, 41, 42, 43, 44, 45, 46, 47],
    [48, 49, 50, 51, 52, 53, 54, 55, 56, 57, 58, 59, 60, 61, 62, 63],
    [64, 65, 66, 67, 68, 69, 70, 71, 72, 73, 74, 75, 76, 77, 78, 79],
    [80, 81, 82, 83, 84, 85, 86, 87, 88, 89, 90, 91, 92, 93, 94, 95],
    [96, 97, 98, 99, 100, 101, 102, 103, 104, 105, 106, 107, 108, 109, 110, 111],
    [112, 113, 114, 115, 116, 117, 118, 119, 120, 121, 122, 123, 124, 125, 126, 127],
    [138, 32631, 32642, 32643, 32644, 32645, 32646, 32647, 32648, 32649, 32650, 32651, 32652, 32653, 32654, 32655],
    [32656, 32657, 32658, 32659, 32660, 32661, 32662, 32663, 32664, 32665, 32666, 32667, 32668, 32669, 32670, 32671],
    [32672, 32673, 32674, 32675, 32676, 32677, 32678, 32679, 32680, 32681, 32682, 32683, 32684, 32685, 32686, 32687],
    [32688, 32689, 32690, 32691, 32692, 32693, 32694, 32695, 32696, 32697, 32698, 32699, 32700, 32701, 32702, 32703],
    [32704, 32705, 32706, 32707, 32708, 32709, 32710, 32711, 32712, 32713, 32714, 32715, 32716, 32717, 32718, 32719],
    [32720, 32721, 32722, 32723, 32724, 32725, 32726, 32727, 32728, 32729, 32730, 32731, 32732, 32733, 32734, 32735],
    [32736, 32737, 32738, 32739, 32740, 32741, 32742, 32743, 32744, 32745, 32746, 32747, 32748, 32749, 32750, 32751],
    [32752, 32753, 32754, 32755, 32756, 32757, 32758, 32759, 32760, 32761, 32762, 32763, 32764, 32765, 32766, 32767],
    [32768] ]

/-- Table 2 (R98). -/
def romTable2 : List (List Nat) :=
  [ [0, 1, 2, 3, 4, 5, 6, 7, 8, 9, 10, 11, 12, 13, 14, 15],
    [16, 17, 18, 19, 20, 21, 22, 23, 24, 25, 26, 27, 28, 29, 30, 31],
    [32, 33, 34, 35, 36, 37, 38, 39, 40, 41, 42, 43, 44, 45, 46, 47],
    [48, 49, 50, 51, 52, 53, 54, 55, 56, 57, 58, 59, 60, 61, 62, 63],
    [64, 65, 66, 67, 68, 69, 70, 71, 72, 73, 74, 75, 76, 77, 78, 79],
    [80, 81, 82, 83, 84, 85, 86, 87, 88, 89, 90, 91, 92, 93, 94, 95],
    [96, 97, 98, 99, 100, 101, 102, 103, 104, 105, 106, 107, 108, 109, 110, 111],
    [112, 113, 114, 115, 116, 117, 118, 119, 120, 121, 122, 123, 124, 125, 126, 127],
    [240, 32529, 32642, 32643, 32644, 32645, 32646, 32647, 32648, 32649, 32650, 32651, 32652, 32653, 32654, 32655],
    [32656, 32657, 32658, 32659, 32660, 32661, 32662, 32663, 32664, 32665, 32666, 32667, 32668, 32669, 32670, 32671],
    [32672, 32673, 32674, 32675, 32676, 32677, 32678, 32679, 32680, 32681, 32682, 32683, 32684, 32685, 32686, 32687],
    [32688, 32689, 32690, 32691, 32692, 32693, 32694, 32695, 32696, 32697, 32698, 32699, 32700, 32701, 32702, 32703],
    [32704, 32705, 32706, 32707, 32708, 32709, 32710, 32711, 32712, 32713, 32714, 32715, 32716, 32717, 32718, 32719],
    [32720, 32721, 32722, 32723, 32724, 32725, 32726, 32727, 32728, 32729, 32730, 32731, 32732, 32733, 32734, 32735],
    [32736, 32737, 32738, 32739, 32740, 32741, 32742, 32743, 32744, 32745, 32746, 32747, 32748, 32749, 32750, 32751],
    [32752, 32753, 32754, 32755, 32756, 32757, 32758, 32759, 32760, 32761, 32762, 32763, 32764, 32765, 32766, 32767],
    [32768] ]

/-- Table 3 (R98). -/
def romTable3 : List (List Nat) :=
  [ [0, 1, 2, 3, 4, 5, 6, 7, 8, 9, 10, 11, 12, 13, 14, 15],
    [16, 17, 18, 19, 20, 21, 22, 23, 24, 25, 26, 27, 28, 29, 30, 31],
    [32, 33, 34, 35, 36, 37, 38, 39, 40, 41, 42, 43, 44, 45, 46, 47],
    [48, 49, 50, 51, 52, 53, 54, 55, 56, 57, 58, 59, 60, 61, 62, 63],
    [64, 65, 66, 67, 68, 69, 70, 71, 72, 73, 74, 75, 76, 77, 78, 79],
    [80, 81, 82, 83, 84, 85, 86, 87, 88, 89, 90, 91, 92, 93, 94, 95],
    [96, 97, 98, 99, 100, 101, 102, 103, 104, 105, 106, 107, 108, 109, 110, 111],
    [112, 113, 114, 115, 116, 117, 118, 119, 120, 121, 122, 123, 124, 125, 126, 137],
    [711, 32058, 32632, 32643, 32644, 32645, 32646, 32647, 32648, 32649, 32650, 32651, 32652, 32653, 32654, 32655],
    [32656, 32657, 32658, 32659, 32660, 32661, 32662, 32663, 32664, 32665, 32666, 32667, 32668, 32669, 32670, 32671],
    [32672, 32673, 32674, 32675, 32676, 32677, 32678, 32679, 32680, 32681, 32682, 32683, 32684, 32685, 32686, 32687],
    [32688, 32689, 32690, 32691, 32692, 32693, 32694, 32695, 32696, 32697, 32698, 32699, 32700, 32701, 32702, 32703],
    [32704, 32705, 32706, 32707, 32708, 32709, 32710, 32711, 32712, 32713, 32714, 32715, 32716, 32717, 32718, 32719],
    [32720, 32721, 32722, 32723, 32724, 32725, 32726, 32727, 32728, 32729, 32730, 32731, 32732, 32733, 32734, 32735],
    [32736, 32737, 32738, 32739, 32740, 32741, 32742, 32743, 32744, 32745, 32746, 32747, 32748, 32749, 32750, 32751],
    [32752, 32753, 32754, 32755, 32756, 32757, 32758, 32759, 32760, 32761, 32762, 32763, 32764, 32765, 32766, 32767],
    [32768] ]

/-- Table 4 (R98). -/
def romTable4 : List (List Nat) :=
  [ [0, 1, 2, 3, 4, 5, 6, 7, 8, 9, 10, 11, 12, 13, 14, 15],
    [16, 17, 18, 19, 20, 21, 22, 23, 24, 25, 26, 27, 28, 29, 30, 31],
    [32, 33, 34, 35, 36, 37, 38, 39, 40, 41, 42, 43, 44, 45, 46, 47],
    [48, 49, 50, 51, 52, 53, 54, 55, 56, 57, 58, 59, 60, 61, 62, 63],
    [64, 65, 66, 67, 68, 69, 70, 71, 72, 73, 74, 75, 76, 77, 78, 79],
    [80, 81, 82, 83, 84, 85, 86, 87, 88, 89, 90, 91, 92, 93, 94, 95],
    [96, 97, 98, 99, 100, 101, 102, 103, 104, 105, 106, 107, 108, 109, 110, 111],
    [112, 113, 114, 115, 116, 117, 118, 119, 120, 121, 122, 123, 124, 125, 131, 232],
    [1940, 30829, 32537, 32638, 32644, 32645, 32646, 32647, 32648, 32649, 32650, 32651, 32652, 32653, 32654, 32655],
    [32656, 32657, 32658, 32659, 32660, 32661, 32662, 32663, 32664, 32665, 32666, 32667, 32668, 32669, 32670, 32671],
    [32672, 32673, 32674, 32675, 32676, 32677, 32678, 32679, 32680, 32681, 32682, 32683, 32684, 32685, 32686, 32687],
    [32688, 32689, 32690, 32691, 32692, 32693, 32694, 32695, 32696, 32697, 32698, 32699, 32700, 32701, 32702, 32703],
    [32704, 32705, 32706, 32707, 32708, 32709, 32710, 32711, 32712, 32713, 32714, 32715, 32716, 32717, 32718, 32719],
    [32720, 32721, 32722, 32723, 32724, 32725, 32726, 32727, 32728, 32729, 32730, 32731, 32732, 32733, 32734, 32735],
    [32736, 32737, 32738, 32739, 32740, 32741, 32742, 32743, 32744, 32745, 32746, 32747, 32748, 32749, 32750, 32751],
    [32752, 32753, 32754, 32755, 32756, 32757, 32758, 32759, 32760, 32761, 32762, 32763, 32764, 32765, 32766, 32767],
    [32768] ]

/-- Table 5 (R98). -/
def romTable5 : List (List Nat) :=
  [ [0, 1, 2, 3, 4, 5, 6, 7, 8, 9, 10, 11, 12, 13, 14, 15],
    [16, 17, 18, 19, 20, 21, 22, 23, 24, 25, 26, 27, 28, 29, 30, 31],
    [32, 33, 34, 35, 36, 37, 38, 39, 40, 41, 42, 43, 44, 45, 46, 47],
    [48, 49, 50, 51, 52, 53, 54, 55, 56, 57, 58, 59, 60, 61, 62, 63],
    [64, 65, 66, 67, 68, 69, 70, 71, 72, 73, 74, 75, 76, 77, 78, 79],
    [80, 81, 82, 83, 84, 85, 86, 87, 88, 89, 90, 91, 92, 93, 94, 95],
    [96, 97, 98, 99, 100, 101, 102, 103, 104, 105, 106, 107, 108, 109, 110, 111],
    [112, 113, 114, 115, 116, 117, 118, 119, 120, 121, 122, 123, 124, 132, 194, 648],
    [4000, 28769, 32121, 32575, 32637, 32645, 32646, 32647, 32648, 32649, 32650, 32651, 32652, 32653, 32654, 32655],
    [32656, 32657, 32658, 32659, 32660, 32661, 32662, 32663, 32664, 32665, 32666, 32667, 32668, 32669, 32670, 32671],
    [32672, 32673, 32674, 32675, 32676, 32677, 32678, 32679, 32680, 32681, 32682, 32683, 32684, 32685, 32686, 32687],
    [32688, 32689, 32690, 32691, 32692, 32693, 32694, 32695, 32696, 32697, 32698, 32699, 32700, 32701, 32702, 32703],
    [32704, 32705, 32706, 32707, 32708, 32709, 32710, 32711, 32712, 32713, 32714, 32715, 32716, 32717, 32718, 32719],
    [32720, 32721, 32722, 32723, 32724, 32725, 32726, 32727, 32728, 32729, 32730, 32731, 32732, 32733, 32734, 32735],
    [32736, 32737, 32738, 32739, 32740, 32741, 32742, 32743, 32744, 32745, 32746, 32747, 32748, 32749, 32750, 32751],
    [32752, 32753, 32754, 32755, 32756, 32757, 32758, 32759, 32760, 32761, 32762, 32763, 32764, 32765, 32766, 32767],
    [32768] ]

/-- Table 6 (R98). -/
def romTable6 : List (List Nat) :=
  [ [0, 1, 2, 3, 4, 5, 6, 7, 8, 9, 10, 11, 12, 13, 14, 15],
    [16, 17, 18, 19, 20, 21, 22, 23, 24, 25, 26, 27, 28, 29, 30, 31],
    [32, 33, 34, 35, 36, 37, 38, 39, 40, 41, 42, 43, 44, 45, 46, 47],
    [48, 49, 50, 51, 52, 53, 54, 55, 56, 57, 58, 59, 60, 61, 62, 63],
    [64, 65, 66, 67, 68, 69, 70, 71, 72, 73, 74, 75, 76, 77, 78, 79],
    [80, 81, 82, 83, 84, 85, 86, 87, 88, 89, 90, 91, 92, 93, 94, 95],
    [96, 97, 98, 99, 100, 101, 102, 103, 104, 105, 106, 107, 108, 109, 110, 111],
    [112, 113, 114, 115, 116, 117, 118, 119, 120, 121, 122, 126, 143, 212, 497, 1667],
    [6481, 26288, 31102, 32272, 32557, 32626, 32643, 32647, 32648, 32649, 32650, 32651, 32652, 32653, 32654, 32655],
    [32656, 32657, 32658, 32659, 32660, 32661, 32662, 32663, 32664, 32665, 32666, 32667, 32668, 32669, 32670, 32671],
    [32672, 32673, 32674, 32675, 32676, 32677, 32678, 32679, 32680, 32681, 32682, 32683, 32684, 32685, 32686, 32687],
    [32688, 32689, 32690, 32691, 32692, 32693, 32694, 32695, 32696, 32697, 32698, 32699, 32700, 32701, 32702, 32703],
    [32704, 32705, 32706, 32707, 32708, 32709, 32710, 32711, 32712, 32713, 32714, 32715, 32716, 32717, 32718, 32719],
    [32720, 32721, 32722, 32723, 32724, 32725, 32726, 32727, 32728, 32729, 32730, 32731, 32732, 32733, 32734, 32735],
    [32736, 32737, 32738, 32739, 32740, 32741, 32742, 32743, 32744, 32745, 32746, 32747, 32748, 32749, 32750, 32751],
    [32752, 32753, 32754, 32755, 32756, 32757, 32758, 32759, 32760, 32761, 32762, 32763, 32764, 32765, 32766, 32767],
    [32768] ]

/-- Table 7 (R98). -/
def romTable7 : List (List Nat) :=
  [ [0, 1, 2, 3, 4, 5, 6, 7, 8, 9, 10, 11, 12, 13, 14, 15],
    [16, 17, 18, 19, 20, 21, 22, 23, 24, 25, 26, 27, 28, 29, 30, 31],
    [32, 33, 34, 35, 36, 37, 38, 39, 40, 41, 42, 43, 44, 45, 46, 47],
    [48, 49, 50, 51, 52, 53, 54, 55, 56, 57, 58, 59, 60, 61, 62, 63],
    [64, 65, 66, 67, 68, 69, 70, 71, 72, 73, 74, 75, 76, 77, 78, 79],
    [80, 81, 82, 83, 84, 85, 86, 87, 88, 89, 90, 91, 92, 93, 94, 95],
    [96, 97, 98, 99, 100, 101, 102, 103, 104, 105, 106, 107, 108, 109, 110, 111],
    [112, 113, 114, 115, 116, 117, 118, 119, 121, 126, 140, 178, 280, 556, 1304, 3338],
    [8866, 23903, 29431, 31465, 32213, 32489, 32591, 32629, 32643, 32648, 32650, 32651, 32652, 32653, 32654, 32655],
    [32656, 32657, 32658, 32659, 32660, 32661, 32662, 32663, 32664, 32665, 32666, 32667, 32668, 32669, 32670, 32671],
    [32672, 32673, 32674, 32675, 32676, 32677, 32678, 32679, 32680, 32681, 32682, 32683, 32684, 32685, 32686, 32687],
    [32688, 32689, 32690, 32691, 32692, 32693, 32694, 32695, 32696, 32697, 32698, 32699, 32700, 32701, 32702, 32703],
    [32704, 32705, 32706, 32707, 32708, 32709, 32710, 32711, 32712, 32713, 32714, 32715, 32716, 32717, 32718, 32719],
    [32720, 32721, 32722, 32723, 32724, 32725, 32726, 32727, 32728, 32729, 32730, 32731, 32732, 32733, 32734, 32735],
    [32736, 32737, 32738, 32739, 32740, 32741, 32742, 32743, 32744, 32745, 32746, 32747, 32748, 32749, 32750, 32751],
    [32752, 32753, 32754, 32755, 32756, 32757, 32758, 32759, 32760, 32761, 32762, 32763, 32764, 32765, 32766, 32767],
    [32768] ]

/-- Table 8 (R98). -/
def romTable8 : List (List Nat) :=
  [ [0, 1, 2, 3, 4, 5, 6, 7, 8, 9, 10, 11, 12, 13, 14, 15],
    [16, 17, 18, 19, 20, 21, 22, 23, 24, 25, 26, 27, 28, 29, 30, 31],
    [32, 33, 34, 35, 36, 37, 38, 39, 40, 41, 42, 43, 44, 45, 46, 47],
    [48, 49, 50, 51, 52, 53, 54, 55, 56, 57, 58, 59, 60, 61, 62, 63],
    [64, 65, 66, 67, 68, 69, 70, 71, 72, 73, 74, 75, 76, 77, 78, 79],
    [80, 81, 82, 83, 84, 85, 86, 87, 88, 89, 90, 91, 92, 93, 94, 95],
    [96, 97, 98, 99, 100, 101, 102, 103, 104, 105, 106, 107, 108, 109, 110, 111],
    [112, 113, 114, 115, 117, 120, 125, 135, 154, 193, 271, 430, 752, 1405, 2729, 5414],
    [10858, 21911, 27355, 30040, 31364, 32017, 32339, 32498, 32576, 32615, 32634, 32644, 32649, 32652, 32654, 32655],
    [32656, 32657, 32658, 32659, 32660, 32661, 32662, 32663, 32664, 32665, 32666, 32667, 32668, 32669, 32670, 32671],
    [32672, 32673, 32674, 32675, 32676, 32677, 32678, 32679, 32680, 32681, 32682, 32683, 32684, 32685, 32686, 32687],
    [32688, 32689, 32690, 32691, 32692, 32693, 32694, 32695, 32696, 32697, 32698, 32699, 32700, 32701, 32702, 32703],
    [32704, 32705, 32706, 32707, 32708, 32709, 32710, 32711, 32712, 32713, 32714, 32715, 32716, 32717, 32718, 32719],
    [32720, 32721, 32722, 32723, 32724, 32725, 32726, 32727, 32728, 32729, 32730, 32731, 32732, 32733, 32734, 32735],
    [32736, 32737, 32738, 32739, 32740, 32741, 32742, 32743, 32744, 32745, 32746, 32747, 32748, 32749, 32750, 32751],
    [32752, 32753, 32754, 32755, 32756, 32757, 32758, 32759, 32760, 32761, 32762, 32763, 32764, 32765, 32766, 32767],
    [32768] ]

/-- Table 9 (R98). -/
def romTable9 : List (List Nat) :=
  [ [0, 1, 2, 3, 4, 5, 6, 7, 8, 9, 10, 11, 12, 13, 14, 15],
    [16, 17, 18, 19, 20, 21, 22, 23, 24, 25, 26, 27, 28, 29, 30, 31],
    [32, 33, 34, 35, 36, 37, 38, 39, 40, 41, 42, 43, 44, 45, 46, 47],
    [48, 49, 50, 51, 52, 53, 54, 55, 56, 57, 58, 59, 60, 61, 62, 63],
    [64, 65, 66, 67, 68, 69, 70, 71, 72, 73, 74, 75, 76, 77, 78, 79],
    [80, 81, 82, 83, 84, 85, 86, 87, 88, 89, 90, 91, 92, 93, 94, 95],
    [96, 97, 98, 99, 100, 101, 102, 103, 104, 105, 106, 107, 108, 109, 110, 111],
    [113, 116, 121, 129, 141, 161, 194, 248, 337, 483, 724, 1121, 1775, 2853, 4630, 7560],
    [12391, 20378, 25209, 28139, 29916, 30994, 31648, 32045, 32286, 32432, 32521, 32575, 32608, 32628, 32640, 32648],
    [32653, 32656, 32658, 32659, 32660, 32661, 32662, 32663, 32664, 32665, 32666, 32667, 32668, 32669, 32670, 32671],
    [32672, 32673, 32674, 32675, 32676, 32677, 32678, 32679, 32680, 32681, 32682, 32683, 32684, 32685, 32686, 32687],
    [32688, 32689, 32690, 32691, 32692, 32693, 32694, 32695, 32696, 32697, 32698, 32699, 32700, 32701, 32702, 32703],
    [32704, 32705, 32706, 32707, 32708, 32709, 32710, 32711, 32712, 32713, 32714, 32715, 32716, 32717, 32718, 32719],
    [32720, 32721, 32722, 32723, 32724, 32725, 32726, 32727, 32728, 32729, 32730, 32731, 32732, 32733, 32734, 32735],
    [32736, 32737, 32738, 32739, 32740, 32741, 32742, 32743, 32744, 32745, 32746, 32747, 32748, 32749, 32750, 32751],
    [32752, 32753, 32754, 32755, 32756, 32757, 32758, 32759, 32760, 32761, 32762, 32763, 32764, 32765, 32766, 32767],
    [32768] ]

/-- Table 10 (R98). -/
def romTable10 : List (List Nat) :=
  [ [0, 1, 2, 3, 4, 5, 6, 7, 8, 9, 10, 11, 12, 13, 14, 15],
    [16, 17, 18, 19, 20, 21, 22, 23, 24, 25, 26, 27, 28, 29, 30, 31],
    [32, 33, 34, 35, 36, 37, 38, 39, 40, 41, 42, 43, 44, 45, 46, 47],
    [48, 49, 50, 51, 52, 53, 54, 55, 56, 57, 58, 59, 60, 61, 62, 63],
    [64, 65, 66, 67, 68, 69, 70, 71, 72, 73, 74, 75, 76, 77, 78, 79],
    [80, 81, 82, 83, 84, 85, 86, 87, 88, 89, 90, 91, 92, 93, 94, 95],
    [96, 97, 98, 99, 100, 101, 102, 103, 104, 105, 107, 110, 114, 119, 126, 136],
    [150, 170, 199, 240, 298, 380, 497, 663, 899, 1236, 1715, 2397, 3369, 4753, 6723, 9529],
    [13525, 19244, 23240, 26046, 28016, 29400, 30372, 31054, 31533, 31870, 32106, 32272, 32389, 32471, 32529, 32570],
    [32599, 32619, 32633, 32643, 32650, 32655, 32659, 32662, 32664, 32665, 32666, 32667, 32668, 32669, 32670, 32671],
    [32672, 32673, 32674, 32675, 32676, 32677, 32678, 32679, 32680, 32681, 32682, 32683, 32684, 32685, 32686, 32687],
    [32688, 32689, 32690, 32691, 32692, 32693, 32694, 32695, 32696, 32697, 32698, 32699, 32700, 32701, 32702, 32703],
    [32704, 32705, 32706, 32707, 32708, 32709, 32710, 32711, 32712, 32713, 32714, 32715, 32716, 32717, 32718, 32719],
    [32720, 32721, 32722, 32723, 32724, 32725, 32726, 32727, 32728, 32729, 32730, 32731, 32732, 32733, 32734, 32735],
    [32736, 32737, 32738, 32739, 32740, 32741, 32742, 32743, 32744, 32745, 32746, 32747, 32748, 32749, 32750, 32751],
    [32752, 32753, 32754, 32755, 32756, 32757, 32758, 32759, 32760, 32761, 32762, 32763, 32764, 32765, 32766, 32767],
    [32768] ]

/-- Table 11 (R98). -/
def romTable11 : List (List Nat) :=
  [ [0, 1, 2, 3, 4, 5, 6, 7, 8, 9, 10, 11, 12, 13, 14, 15],
    [16, 17, 18, 19, 20, 21, 22, 23, 24, 25, 26, 27, 28, 29, 30, 31],
    [32, 33, 34, 35, 36, 37, 38, 39, 40, 41, 42, 43, 44, 45, 46, 47],
    [48, 49, 50, 51, 52, 53, 54, 55, 56, 57, 58, 59, 60, 61, 62, 63],
    [64, 65, 66, 67, 68, 69, 70, 71, 72, 73, 74, 75, 76, 77, 78, 79],
    [80, 81, 82, 83, 84, 85, 86, 87, 88, 89, 90, 91, 92, 93, 94, 95],
    [96, 98, 100, 103, 106, 110, 115, 121, 129, 139, 152, 169, 191, 219, 254, 299],
    [357, 431, 526, 648, 805, 1007, 1266, 1598, 2025, 2573, 3276, 4179, 5338, 6826, 8737, 11191],
    [14341, 18428, 21578, 24032, 25943, 27431, 28590, 29493, 30196, 30744, 31171, 31503, 31762, 31964, 32121, 32243],
    [32338, 32412, 32470, 32515, 32550, 32578, 32600, 32617, 32630, 32640, 32648, 32654, 32659, 32663, 32666, 32669],
    [32671, 32673, 32674, 32675, 32676, 32677, 32678, 32679, 32680, 32681, 32682, 32683, 32684, 32685, 32686, 32687],
    [32688, 32689, 32690, 32691, 32692, 32693, 32694, 32695, 32696, 32697, 32698, 32699, 32700, 32701, 32702, 32703],
    [32704, 32705, 32706, 32707, 32708, 32709, 32710, 32711, 32712, 32713, 32714, 32715, 32716, 32717, 32718, 32719],
    [32720, 32721, 32722, 32723, 32724, 32725, 32726, 32727, 32728, 32729, 32730, 32731, 32732, 32733, 32734, 32735],
    [32736, 32737, 32738, 32739, 32740, 32741, 32742, 32743, 32744, 32745, 32746, 32747, 32748, 32749, 32750, 32751],
    [32752, 32753, 32754, 32755, 32756, 32757, 32758, 32759, 32760, 32761, 32762, 32763, 32764, 32765, 32766, 32767],
    [32768] ]

/-- Table 12 (R98). -/
def romTable12 : List (List Nat) :=
  [ [0, 1, 2, 3, 4, 5, 6, 7, 8, 9, 10, 11, 12, 13, 14, 15],
    [16, 17, 18, 19, 20, 21, 22, 23, 24, 25, 26, 27, 28, 29, 30, 31],
    [32, 33, 34, 35, 36, 37, 38, 39, 40, 41, 42, 43, 44, 45, 46, 47],
    [48, 49, 50, 51, 52, 53, 54, 55, 56, 57, 58, 59, 60, 61, 62, 63],
    [64, 65, 66, 67, 68, 69, 70, 71, 72, 73, 74, 75, 76, 77, 78, 79],
    [80, 81, 82, 83, 84, 86, 88, 90, 92, 95, 98, 102, 107, 112, 118, 125],
    [134, 144, 156, 171, 188, 209, 234, 263, 298, 340, 390, 449, 519, 603, 703, 822],
    [964, 1134, 1337, 1579, 1867, 2211, 2622, 3112, 3697, 4395, 5227, 6220, 7405, 8819, 10507, 12521],
    [14924, 17845, 20248, 22262, 23950, 25364, 26549, 27542, 28374, 29072, 29657, 30147, 30558, 30902, 31190, 31432],
    [31635, 31805, 31947, 32066, 32166, 32250, 32320, 32379, 32429, 32471, 32506, 32535, 32560, 32581, 32598, 32613],
    [32625, 32635, 32644, 32651, 32657, 32662, 32667, 32671, 32674, 32677, 32679, 32681, 32683, 32685, 32686, 32687],
    [32688, 32689, 32690, 32691, 32692, 32693, 32694, 32695, 32696, 32697, 32698, 32699, 32700, 32701, 32702, 32703],
    [32704, 32705, 32706, 32707, 32708, 32709, 32710, 32711, 32712, 32713, 32714, 32715, 32716, 32717, 32718, 32719],
    [32720, 32721, 32722, 32723, 32724, 32725, 32726, 32727, 32728, 32729, 32730, 32731, 32732, 32733, 32734, 32735],
    [32736, 32737, 32738, 32739, 32740, 32741, 32742, 32743, 32744, 32745, 32746, 32747, 32748, 32749, 32750, 32751],
    [32752, 32753, 32754, 32755, 32756, 32757, 32758, 32759, 32760, 32761, 32762, 32763, 32764, 32765, 32766, 32767],
    [32768] ]

/-- Table 13 (R98). -/
def romTable13 : List (List Nat) :=
  [ [0, 1, 2, 3, 4, 5, 6, 7, 8, 9, 10, 11, 12, 13, 14, 15],
    [16, 17, 18, 19, 20, 21, 22, 23, 24, 25, 26, 27, 28, 29, 30, 31],
    [32, 33, 34, 35, 36, 37, 38, 39, 40, 41, 42, 43, 44, 45, 46, 47],
    [48, 49, 50, 51, 52, 53, 54, 55, 56, 57, 58, 59, 60, 61, 62, 63],
    [64, 65, 66, 67, 68, 69, 71, 73, 75, 77, 79, 82, 85, 88, 92, 96],
    [101, 106, 112, 119, 127, 136, 146, 157, 169, 183, 199, 217, 237, 260, 286, 315],
    [348, 386, 429, 477, 531, 593, 663, 742, 832, 933, 1048, 1178, 1325, 1492, 1681, 1895],
    [2138, 2413, 2725, 3078, 3478, 3932, 4446, 5028, 5688, 6435, 7282, 8242, 9329, 10561, 11957, 13539],
    [15332, 17437, 19230, 20812, 22208, 23440, 24527, 25487, 26334, 27081, 27741, 28323, 28837, 29291, 29691, 30044],
    [30356, 30631, 30874, 31088, 31277, 31444, 31591, 31721, 31836, 31937, 32027, 32106, 32176, 32238, 32292, 32340],
    [32383, 32421, 32454, 32483, 32509, 32532, 32552, 32570, 32586, 32600, 32612, 32623, 32633, 32642, 32650, 32657],
    [32663, 32668, 32673, 32677, 32681, 32684, 32687, 32690, 32692, 32694, 32696, 32698, 32700, 32701, 32702, 32703],
    [32704, 32705, 32706, 32707, 32708, 32709, 32710, 32711, 32712, 32713, 32714, 32715, 32716, 32717, 32718, 32719],
    [32720, 32721, 32722, 32723, 32724, 32725, 32726, 32727, 32728, 32729, 32730, 32731, 32732, 32733, 32734, 32735],
    [32736, 32737, 32738, 32739, 32740, 32741, 32742, 32743, 32744, 32745, 32746, 32747, 32748, 32749, 32750, 32751],
    [32752, 32753, 32754, 32755, 32756, 32757, 32758, 32759, 32760, 32761, 32762, 32763, 32764, 32765, 32766, 32767],
    [32768] ]

/-- Table 14 (R98). -/
def romTable14 : List (List Nat) :=
  [ [0, 1, 2, 3, 4, 5, 6, 7, 8, 9, 10, 11, 12, 13, 14, 15],
    [16, 17, 18, 19, 20, 21, 22, 23, 24, 25, 26, 27, 28, 29, 30, 31],
    [32, 33, 34, 35, 36, 37, 38, 39, 40, 41, 42, 43, 44, 45, 46, 47],
    [48, 50, 52, 54, 56, 58, 60, 62, 65, 68, 71, 74, 78, 82, 86, 91],
    [96, 101, 107, 113, 120, 128, 136, 145, 155, 166, 177, 190, 204, 219, 235, 253],
    [272, 293, 316, 341, 368, 398, 430, 465, 504, 546, 592, 642, 697, 757, 823, 895],
    [973, 1058, 1151, 1253, 1364, 1485, 1618, 1763, 1921, 2094, 2283, 2489, 2714, 2960, 3228, 3521],
    [3841, 4191, 4573, 4990, 5446, 5944, 6488, 7082, 7731, 8440, 9215, 10061, 10985, 11995, 13098, 14303],
    [15619, 17150, 18466, 19671, 20774, 21784, 22708, 23554, 24329, 25038, 25687, 26281, 26825, 27323, 27779, 28196],
    [28578, 28928, 29248, 29541, 29809, 30055, 30280, 30486, 30675, 30848, 31006, 31151, 31284, 31405, 31516, 31618],
    [31711, 31796, 31874, 31946, 32012, 32072, 32127, 32177, 32223, 32265, 32304, 32339, 32371, 32401, 32428, 32453],
    [32476, 32497, 32516, 32534, 32550, 32565, 32579, 32592, 32603, 32614, 32624, 32633, 32641, 32649, 32656, 32662],
    [32668, 32673, 32678, 32683, 32687, 32691, 32695, 32698, 32701, 32704, 32707, 32709, 32711, 32713, 32715, 32717],
    [32719, 32721, 32722, 32723, 32724, 32725, 32726, 32727, 32728, 32729, 32730, 32731, 32732, 32733, 32734, 32735],
    [32736, 32737, 32738, 32739, 32740, 32741, 32742, 32743, 32744, 32745, 32746, 32747, 32748, 32749, 32750, 32751],
    [32752, 32753, 32754, 32755, 32756, 32757, 32758, 32759, 32760, 32761, 32762, 32763, 32764, 32765, 32766, 32767],
    [32768] ]

/-- Table 15 (R98). -/
def romTable15 : List (List Nat) :=
  [ [0, 1, 2, 3, 4, 5, 6, 7, 8, 9, 10, 11, 12, 13, 14, 15],
    [16, 17, 18, 19, 20, 22, 24, 26, 28, 30, 32, 34, 36, 38, 40, 43],
    [46, 49, 52, 55, 58, 62, 66, 70, 74, 79, 84, 89, 94, 100, 106, 112],
    [119, 126, 134, 142, 151, 160, 170, 180, 191, 203, 215, 228, 242, 257, 273, 290],
    [308, 327, 347, 368, 391, 415, 441, 468, 497, 528, 561, 596, 633, 673, 715, 760],
    [808, 859, 913, 971, 1032, 1097, 1167, 1241, 1320, 1404, 1493, 1588, 1689, 1797, 1911, 2033],
    [2163, 2301, 2448, 2604, 2770, 2947, 3135, 3336, 3550, 3777, 4019, 4276, 4550, 4842, 5153, 5484],
    [5836, 6211, 6610, 7034, 7486, 7967, 8479, 9024, 9604, 10221, 10878, 11577, 12321, 13113, 13957, 14855],
    [15811, 16958, 17914, 18812, 19656, 20448, 21192, 21891, 22548, 23165, 23745, 24290, 24802, 25283, 25735, 26159],
    [26558, 26933, 27285, 27616, 27927, 28219, 28493, 28750, 28992, 29219, 29433, 29634, 29822, 29999, 30165, 30321],
    [30468, 30606, 30736, 30858, 30972, 31080, 31181, 31276, 31365, 31449, 31528, 31602, 31672, 31737, 31798, 31856],
    [31910, 31961, 32009, 32054, 32096, 32136, 32173, 32208, 32241, 32272, 32301, 32328, 32354, 32378, 32401, 32422],
    [32442, 32461, 32479, 32496, 32512, 32527, 32541, 32554, 32566, 32578, 32589, 32599, 32609, 32618, 32627, 32635],
    [32643, 32650, 32657, 32663, 32669, 32675, 32680, 32685, 32690, 32695, 32699, 32703, 32707, 32711, 32714, 32717],
    [32720, 32723, 32726, 32729, 32731, 32733, 32735, 32737, 32739, 32741, 32743, 32745, 32747, 32749, 32750, 32751],
    [32752, 32753, 32754, 32755, 32756, 32757, 32758, 32759, 32760, 32761, 32762, 32763, 32764, 32765, 32766, 32767],
    [32768] ]

/-- The table of bucket b, row by row (R94, R98). -/
def romTable (b : Bucket) : List (List Nat) :=
  match b.toNat with
  | 0 => romTable0
  | 1 => romTable1
  | 2 => romTable2
  | 3 => romTable3
  | 4 => romTable4
  | 5 => romTable5
  | 6 => romTable6
  | 7 => romTable7
  | 8 => romTable8
  | 9 => romTable9
  | 10 => romTable10
  | 11 => romTable11
  | 12 => romTable12
  | 13 => romTable13
  | 14 => romTable14
  | _ => romTable15

/-- `ROM(b, j)`: "the u16 entry j of table b", defined for j ∈ [0,256] (R95). The command rules call it nowhere else. -/
def rom (b : Bucket) (j : Nat) : Nat := ((romTable b).getD (j / 16) []).getD (j % 16) 0

/-- The 257 entries of table b in order. -/
def romEntries (b : Bucket) : List Nat := (romTable b).flatten

/-! ## The construction of R96 -/

/-- The sixteen ratio constants r_b, b = 0 to 15: "The listed integers of rule R97 are normative" (R96, R97). -/
def romRatios : List Nat :=
  [1, 22, 229, 1200, 3874, 8869, 15933, 24109, 32314, 39750, 46019, 51039, 54917, 57835, 59992, 61565]

/-- The sums S_b, b = 0 to 15: "derived from rule R96 and … given for checking" (R97). -/
def romSums : List Nat :=
  [65538, 65580, 65994, 67978, 73768, 86044, 107628, 141800, 193000, 267526, 374482, 526800, 743028, 1049272, 1482610, 2095190]

/-- `w_b(k) = floor(w_b(k-1) * r_b / 65536)`: the weights from w on, n + 1 of them (R96). -/
def romWeights (r : Nat) : (n : Nat) → (w : Nat) → List Nat
  | 0, w => [w]
  | n + 1, w => w :: romWeights r n (w * r / 65536)

/-- `w_b(|x|)` for x from −128 to 127 (R96). -/
def romBothSides (r : Nat) : List Nat :=
  (romWeights r 128 65536).reverse ++ ((romWeights r 128 65536).drop 1).take 127

/-- `f_b(x)` for x from −128 to 127: `1 + floor(w_b(|x|) * 32512 / S_b)` for x ≠ 0, and what is left of 32768 for x = 0 (R96). -/
def romFrequencies (r : Nat) : List Nat :=
  let ws := romBothSides r
  let total := ws.sum
  let fs := ws.map fun w => 1 + w * 32512 / total
  fs.set 128 (32768 - (fs.set 128 0).sum)

/-- The running sums of a list, from v on. -/
def runningSums (v : Nat) : List Nat → List Nat
  | [] => [v]
  | f :: rest => v :: runningSums (v + f) rest

/-- The 257 entries of table b as R96 makes them from r_b: `ROM(b,0) = 0`, `ROM(b,j) = ROM(b,j-1) + f_b(j-129)`. -/
def romConstruction (b : Bucket) : List Nat := runningSums 0 (romFrequencies (romRatios.getD b.toNat 0))

end Machine
end Sys2Proof
end

