-- ==== Sys2Proof/Machine/Variance.lean ====
section
/-! DEFINITION. The variance model: its functions (41_variance_model.md section 1) and its commands (section 2). -/

namespace Sys2Proof
namespace Machine

/-- `cdf_fn(x, b)`: 0 if x ≤ −128, `ROM(b, x + 128)` if −128 < x ≤ 128, 32768 if x > 128 (R201). -/
def cdfFn (x : Int) (b : Bucket) : Nat :=
  if x ≤ -128 then 0 else if x ≤ 128 then rom b (x + 128).toNat else Config.total

/-- `freq_fn(x, b) = cdf_fn(x + 1, b) − cdf_fn(x, b)`; cdf_fn is nondecreasing, so the difference is never negative (R202). -/
def freqFn (x : Int) (b : Bucket) : Nat := cdfFn (x + 1) b - cdfFn x b

/-- How many entries of a rising list are at most y, counted from its first entry. -/
def countUpTo (y : Nat) : List Nat → Nat
  | [] => 0
  | v :: rest => if v ≤ y then countUpTo y rest + 1 else 0

/-- `icdf_fn(y, b)`, for y < 32768: the x with `cdf_fn(x, b) <= y < cdf_fn(x + 1, b)` (R203). The entries of table b rise
(R108), so the entries at most y are the first k of them, and x + 128 is the index of the last, k − 1. "A model may compute
icdf_fn by any search that returns this x." -/
def icdfFn (y : Nat) (b : Bucket) : Int := (countUpTo y (romEntries b) : Int) - 129

/-- `v2b_fn(v)`: 0 if v < 2^11, `min(15, msb(v) - 10)` otherwise (R204). -/
def v2bFn (v : Nat) : Bucket := if v < 2 ^ 11 then 0#4 else BitVec.ofNat 4 (min 15 (msb v - 10))

/-- `b2v_fn(i)`, "2^(clamp(i, 0, 15) + 10)" (R206). -/
def b2vFn (i : Int) : Nat := 2 ^ ((clamp i 0 15).toNat + 10)

/-- CDF: `RESULT0 <- u32(cdf_fn(x, b))`, x = s32(ARG0) (R210). -/
def execCdf (b : Bucket) (s : State) : Result := succeed (s.withResult0 (toWord (cdfFn (s.argS 0) b)))

/-- FREQ: `RESULT0 <- u32(freq_fn(x, b))`, x = s32(ARG0) (R211). -/
def execFreq (b : Bucket) (s : State) : Result := succeed (s.withResult0 (toWord (freqFn (s.argS 0) b)))

/-- ICDF: BAD_ARGUMENT if y ≥ 32768, else RESULT0 to RESULT2 take x, cdf and freq (R212). -/
def execIcdf (b : Bucket) (s : State) : Result :=
  let y := s.argU 0
  if y ≥ Config.total then failWith .badArgument .na s
  else
    let x := icdfFn y b
    succeed (s.withResult012 (toWord x) (toWord (cdfFn x b)) (toWord (freqFn x b)))

/-- V2B: `RESULT0 <- v2b_fn(v)` (R213). -/
def execV2b (s : State) : Result := succeed (s.withResult0 (toWord (v2bFn (s.argU 0)).toNat))

/-- B2V: `RESULT0 <- b2v_fn(i)` (R214). -/
def execB2v (s : State) : Result := succeed (s.withResult0 (toWord (b2vFn (s.argS 0))))

/-- SCALEBITS: `RESULT0 <- 15` (R215). -/
def execScalebits (s : State) : Result := succeed (s.withResult0 (toWord Config.scaleBits))

end Machine
end Sys2Proof
end

