-- ==== Sys2Proof/Machine/Predictor.lean ====
section
/-! DEFINITION. The predictor, quantizer and variance-state functions (44_predictor.md section 1) and their commands (section
2). -/

namespace Sys2Proof
namespace Machine

/-- `predict_fn(p1, p2)`: `d <- qmul_fn(p1, p2, cnj = 1)`, then `qmul_fn(d, p1, cnj = 0)` (R320). -/
def predictFn (p1 p2 : Quad Int) : Quad Int := qmulFn (qmulFn p1 p2 true) p1 false

/-- The prediction from a predictor state's P1 and P2. -/
def Predictor.prediction (w : Predictor) : Quad Int := predictFn (quatOf w.p1) (quatOf w.p2)

/-- `quant_fn(a, pr, F)`: with s = 30 − F and e = a − pr, e if s = 0, else `(e + 2^(s-1)) >> s` (R322). -/
def quantFn (a pr : Int) (f : Nat) : Int :=
  let sh := Config.qFrac - f
  let e := a - pr
  if sh = 0 then e else asr (e + 2 ^ (sh - 1)) sh

/-- `overflow(a, pr, F)`, "q < -128 or q > 127" (R322). -/
def quantOverflows (a pr : Int) (f : Nat) : Bool := !isSymbol (quantFn a pr f)

/-- `dequant_fn(pr, q, F) = sat32(pr + q * 2^(30 - F))` (R323). -/
def dequantFn (pr q : Int) (f : Nat) : Int := sat32 (pr + q * 2 ^ (Config.qFrac - f))

/-- `vupd_fn(v, q) = v - (v >> 4) + ((q * q) << 12)` (R325). "The result always fits a u32." -/
def vupdFn (v : Nat) (q : Int) : Int := (v : Int) - asr v Config.varShift + q * q * 2 ^ 12

/-- `classify_fn(v)`, "is v2b_fn(v)" (R326). -/
def classifyFn (v : Word) : Bucket := v2bFn (u32 v)

/-- VAR[c] after the symbol q. -/
def updateVar (v : Word) (q : Int) : Word := toWord (vupdFn (u32 v) q)

/-- "W.P2 <- W.P1 ; W.P1 <- (rec_0, rec_1, rec_2, rec_3)" (R328). -/
def Predictor.advance (w : Predictor) (rec4 : Quad Int) : Predictor := { w with p1 := wordsOf rec4, p2 := w.p1 }

/-- The lowest channel c, from 0 to 3, of which `bad` holds. -/
def firstChannel (bad : Fin 4 → Bool) : Option (Fin 4) :=
  if bad 0 then some 0 else if bad 1 then some 1 else if bad 2 then some 2 else if bad 3 then some 3 else none

/-- PREDICT: `pr <- predict_fn(P1, P2)` into RESULT0 to RESULT3 (R330). -/
def execPredict (s : State) : Result := succeed (s.withResult (wordsOf s.pred.prediction))

/-- QUANT: "QUANT_OVERFLOW for the lowest channel c whose symbol falls outside [−128,127]", else the four symbols (R331). -/
def execQuant (p : Profile) (s : State) : Result :=
  let a := quatOf s.argLo
  let pr := quatOf s.argHi
  let f := s.profile p
  match firstChannel fun c => quantOverflows (a.get c) (pr.get c) f with
  | some c => failWith .quantOverflow (.ofChannel c) s
  | none =>
    succeed (s.withResult (wordsOf ⟨quantFn a.c0 pr.c0 f, quantFn a.c1 pr.c1 f, quantFn a.c2 pr.c2 f, quantFn a.c3 pr.c3 f⟩))

/-- DEQUANT: "BAD_ARGUMENT for the lowest channel whose symbol is not a Symbol", else the four components (R332). -/
def execDequant (p : Profile) (s : State) : Result :=
  let q := quatOf s.argLo
  let pr := quatOf s.argHi
  let f := s.profile p
  match firstChannel fun c => !isSymbol (q.get c) with
  | some c => failWith .badArgument (.ofChannel c) s
  | none =>
    succeed (s.withResult
      (wordsOf ⟨dequantFn pr.c0 q.c0 f, dequantFn pr.c1 q.c1 f, dequantFn pr.c2 q.c2 f, dequantFn pr.c3 q.c3 f⟩))

/-- CLASSIFY: `RESULT[c] <- classify_fn(VAR[c])` (R333). -/
def execClassify (s : State) : Result := succeed (s.withResult (s.pred.var.map fun v => toWord (classifyFn v).toNat))

/-- VUPD: BAD_ARGUMENT if q is not a Symbol, else `RESULT0 <- vupd_fn(v, q)` (R334). -/
def execVupd (s : State) : Result :=
  if isSymbol (s.argS 1) then succeed (s.withResult0 (toWord (vupdFn (s.argU 0) (s.argS 1))))
  else failWith .badArgument .na s

end Machine
end Sys2Proof
end

