-- ==== Sys2Proof/Machine/RangeCoder.lean ====
section
/-! DEFINITION. The range encoder and decoder: their functions (43_range_coder.md sections 2 and 4) and their commands (sections
3 and 5). The encoder's functions act on the encoder and BUF, the decoder's on the decoder alone, reading BUF; each raises its
error at the site its caller gives. -/

namespace Sys2Proof
namespace Machine

/-! ## Encoder functions -/

/-- What the encoder's functions act on: its registers and BUF. -/
structure EncPort where
  enc : Encoder
  buf : Buf
deriving DecidableEq, Repr

/-- `putByte(v)`: OUTPUT_EXHAUSTED, with ENC_STATE FAILED first, if OUT_PTR ≥ OUT_END; else the byte at OUT_PTR and OUT_PTR + 1
(R274). -/
def putByte (site : Site) (v : Byte) (p : EncPort) : Except (Stop EncPort) EncPort :=
  if u32 p.enc.outPtr ≥ u32 p.enc.outEnd then
    .error (.raised .outputExhausted site { p with enc := { p.enc with state := .failed } })
  else
    (orNoByte (u32 p.enc.outPtr) (p.buf.store (u32 p.enc.outPtr) v)).map fun m =>
      { p with buf := m, enc := { p.enc with outPtr := p.enc.outPtr + 1#32 } }

/-- `ENC_CSIZE <- ENC_CSIZE - 1` (R275). -/
def EncPort.countDown (p : EncPort) : EncPort := { p with enc := { p.enc with csize := p.enc.csize - 1#32 } }

/-- The `repeat … until ENC_CSIZE = 0` of shiftLow, with `again` passes after this one: `putByte((temp + carry) mod 256) ; temp
<- 0xFF ; ENC_CSIZE <- ENC_CSIZE - 1` (R275). -/
def putHeld (site : Site) (carry : Byte) : (again : Nat) → (temp : Byte) → EncPort → Except (Stop EncPort) EncPort
  | 0, temp, p => (putByte site (temp + carry) p).map EncPort.countDown
  | n + 1, temp, p => (putByte site (temp + carry) p).bind fun p' => putHeld site carry n 0xFF#8 p'.countDown

/-- The writing path of shiftLow: write the held-back bytes with the carry `low >> 32`, then `ENC_CACHE <- low[31:24]` (R275).
The loop runs until ENC_CSIZE is 0, so ENC_CSIZE − 1 passes follow the first. -/
def releaseHeld (site : Site) (p : EncPort) : Except (Stop EncPort) EncPort :=
  (putHeld site (BitVec.ofNat 8 (p.enc.low.toNat / 2 ^ 32)) (u32 (p.enc.csize - 1#32)) p.enc.cache p).map fun p' =>
    { p' with enc := { p'.enc with cache := BitVec.ofNat 8 (p'.enc.low.toNat / 2 ^ 24) } }

/-- The rest of shiftLow: OUTPUT_EXHAUSTED if ENC_CSIZE = 2^32 − 1 (R283), else `ENC_CSIZE <- ENC_CSIZE + 1 ; low <- (low mod
2^24) << 8` (R275). -/
def holdTop (site : Site) (p : EncPort) : Except (Stop EncPort) EncPort :=
  if u32 p.enc.csize = 2 ^ 32 - 1 then
    .error (.raised .outputExhausted site { p with enc := { p.enc with state := .failed } })
  else
    .ok { p with enc := { p.enc with csize := p.enc.csize + 1#32, low := BitVec.ofNat 33 (p.enc.low.toNat % 2 ^ 24 * 2 ^ 8) } }

/-- `shiftLow()`: the top byte is final if low < 0xFF000000 or low ≥ 2^32; else it is held back too (R275). -/
def shiftLow (site : Site) (p : EncPort) : Except (Stop EncPort) EncPort :=
  if p.enc.low.toNat < 0xFF000000 ∨ p.enc.low.toNat ≥ 2 ^ 32 then (releaseHeld site p).bind (holdTop site)
  else holdTop site p

/-- The `while ENC_RANGE < 2^24` of encode_fn: `ENC_RANGE <- ENC_RANGE << 8 ; shiftLow()`, for at most `bound` passes (R276). -/
def encRenorm (site : Site) : (bound : Nat) → EncPort → Except (Stop EncPort) EncPort
  | 0, p => .ok p
  | n + 1, p =>
    if u32 p.enc.range < Config.rcTop then
      (shiftLow site { p with enc := { p.enc with range := p.enc.range <<< 8 } }).bind (encRenorm site n)
    else .ok p

/-- A number of passes the encoder's loop never needs more than: a nonzero range needs at most 3 (2, in a reachable state, R273),
and a range of 0, which no run reaches, writes a byte in every pass after the fourth until the output is exhausted (log entry
7). -/
def encPassBound (p : EncPort) : Nat := u32 p.enc.outEnd - u32 p.enc.outPtr + 5

/-- The narrowing of encode_fn: `r <- ENC_RANGE >> 15 ; low <- low + r * cum ; ENC_RANGE <- r * fr` (R276). -/
def encNarrow (cum fr : Nat) (p : EncPort) : EncPort :=
  let r := u32 p.enc.range / 2 ^ 15
  { p with enc := { p.enc with low := BitVec.ofNat 33 (p.enc.low.toNat + r * cum), range := BitVec.ofNat 32 (r * fr) } }

/-- `encode_fn(cum, fr)`: narrow the interval and renormalise (R276). -/
def encodeFn (site : Site) (cum fr : Nat) (p : EncPort) : Except (Stop EncPort) EncPort :=
  encRenorm site (encPassBound (encNarrow cum fr p)) (encNarrow cum fr p)

/-- `flush_fn()`: "repeat 5 times: shiftLow()" (R280). -/
def flushFn (site : Site) (p : EncPort) : Except (Stop EncPort) EncPort :=
  ((((shiftLow site p).bind (shiftLow site)).bind (shiftLow site)).bind (shiftLow site)).bind (shiftLow site)

/-- The encoder at the start of an encoding into [base, base + …, stop): what ENC_INIT and COMPRESS write (R277, R361). -/
def encoderStart (base stop : Nat) : Encoder :=
  { low := 0#33, range := 0xFFFFFFFF#32, cache := 0#8, csize := 1#32, outBase := BitVec.ofNat 32 base,
    outPtr := BitVec.ofNat 32 base, outEnd := BitVec.ofNat 32 stop, state := .active }

/-- The encoder's part of the state. -/
def State.encPort (s : State) : EncPort := ⟨s.enc, s.buf⟩

/-- Store the encoder's part of the state. -/
def State.withEncPort (s : State) (p : EncPort) : State := (s.withEnc p.enc).withBuf p.buf

/-! ## Encoder commands -/

/-- ENC_INIT (R277), after the region check of R271. -/
def execEncInit (s : State) : Result :=
  if (Region.mk (s.argU 0) (s.argU 1)).inBuf s.buf.size then
    succeed (s.withEnc (encoderStart (s.argU 0) (s.argU 0 + s.argU 1)))
  else failWith .badArgument .na s

/-- ENC_SYM: the encoder must be ACTIVE, and fr ≥ 1 and cum + fr ≤ 32768 (R278). -/
def execEncSym (s : State) : Result :=
  if s.enc.state ≠ .active then failWith .coderNotReady .na s
  else if s.argU 1 < 1 ∨ s.argU 0 + s.argU 1 > Config.total then failWith .badArgument .na s
  else outcomeOf s.withEncPort s.withEncPort (encodeFn .na (s.argU 0) (s.argU 1) s.encPort)

/-- ENC_SYMB: encode the symbol x = s32(ARG0) in bucket b; BAD_ARGUMENT if its frequency is 0 (R279). -/
def execEncSymb (b : Bucket) (s : State) : Result :=
  if s.enc.state ≠ .active then failWith .coderNotReady .na s
  else if freqFn (s.argS 0) b = 0 then failWith .badArgument .na s
  else outcomeOf s.withEncPort s.withEncPort (encodeFn .na (cdfFn (s.argS 0) b) (freqFn (s.argS 0) b) s.encPort)

/-- What ENC_FLUSH does after flush_fn: `ENC_STATE <- FLUSHED ; RESULT0 <- OUT_PTR - OUT_BASE` (R281). -/
def State.afterFlush (s : State) (p : EncPort) : State :=
  (s.withEncPort { p with enc := { p.enc with state := .flushed } }).withResult0 (p.enc.outPtr - p.enc.outBase)

/-- ENC_FLUSH (R281). -/
def execEncFlush (s : State) : Result :=
  if s.enc.state ≠ .active then failWith .coderNotReady .na s
  else outcomeOf s.withEncPort s.afterFlush (flushFn .na s.encPort)

/-! ## Decoder functions -/

/-- `getByte()`, and the byte's entry into DEC_CODE, its one use: INPUT_EXHAUSTED, with DEC_STATE FAILED first, if IN_PTR ≥
IN_END (R290); else `DEC_CODE <- ((DEC_CODE << 8) + v) mod 2^32` (R291, R295). -/
def takeByte (site : Site) (m : Buf) (d : Decoder) : Except (Stop Decoder) Decoder :=
  if u32 d.inPtr ≥ u32 d.inEnd then .error (.raised .inputExhausted site { d with state := .failed })
  else
    (orNoByte (u32 d.inPtr) (m.load (u32 d.inPtr))).map fun v =>
      { d with inPtr := d.inPtr + 1#32, code := BitVec.ofNat 32 (u32 d.code * 2 ^ 8 + v.toNat) }

/-- `dec_init_fn()`: code 0, range 2^32 − 1, then five bytes (R291). -/
def decInitFn (site : Site) (m : Buf) (d : Decoder) : Except (Stop Decoder) Decoder :=
  let take := takeByte site m
  ((((take { d with code := 0#32, range := 0xFFFFFFFF#32 }).bind take).bind take).bind take).bind take

/-- `dec_val_fn()`, "min(floor(DEC_CODE / r), 32767)" with `r <- DEC_RANGE >> 15` (R292). For r = 0, which no run reaches, the
quotient is a free value (log entry 4). -/
def decValFn (d : Decoder) : Nat :=
  let r := u32 d.range / 2 ^ 15
  min (if r = 0 then Config.quotientByZero d.code else u32 d.code / r) 32767

/-- The `while DEC_RANGE < 2^24` of consume_fn: a byte into DEC_CODE, then `DEC_RANGE <- DEC_RANGE << 8`, for at most `bound`
passes; "an exhaustion inside getByte leaves DEC_RANGE unshifted" (R295). -/
def decRenorm (site : Site) (m : Buf) : (bound : Nat) → Decoder → Except (Stop Decoder) Decoder
  | 0, d => .ok d
  | n + 1, d =>
    if u32 d.range < Config.rcTop then
      (takeByte site m d).bind fun d' => decRenorm site m n { d' with range := d'.range <<< 8 }
    else .ok d

/-- A number of passes the decoder's loop never needs more than: a nonzero range needs at most 3, and every pass reads a byte
(log entry 7). -/
def decPassBound (d : Decoder) : Nat := u32 d.inEnd - u32 d.inPtr + 4

/-- The narrowing of consume_fn: `r <- DEC_RANGE >> 15 ; DEC_CODE <- (DEC_CODE - r * cum) mod 2^32 ; DEC_RANGE <- r * fr`
(R295). -/
def decNarrow (cum fr : Nat) (d : Decoder) : Decoder :=
  let r := u32 d.range / 2 ^ 15
  { d with code := toWord ((u32 d.code : Int) - ((r * cum : Nat) : Int)), range := BitVec.ofNat 32 (r * fr) }

/-- `consume_fn(cum, fr)` (R295). -/
def consumeFn (site : Site) (m : Buf) (cum fr : Nat) (d : Decoder) : Except (Stop Decoder) Decoder :=
  decRenorm site m (decPassBound (decNarrow cum fr d)) (decNarrow cum fr d)

/-- The decoder's step for one symbol, `y <- dec_val_fn() ; x <- icdf_fn(y, b) ; consume_fn(cdf_fn(x, b), freq_fn(x, b))`
(R297), answering x and y too. -/
def decodeSymbol (site : Site) (m : Buf) (b : Bucket) (d : Decoder) : Except (Stop Decoder) (Int × Nat × Decoder) :=
  let y := decValFn d
  let x := icdfFn y b
  (consumeFn site m (cdfFn x b) (freqFn x b) d).map fun d' => (x, y, d')

/-- The decoder at the start of a decoding of [base, stop): what DEC_INIT and DECOMPRESS write before dec_init_fn (R293, R370);
DEC_CODE and DEC_RANGE are dec_init_fn's to set. -/
def decoderStart (d : Decoder) (base stop : Nat) : Decoder :=
  { d with inBase := BitVec.ofNat 32 base, inPtr := BitVec.ofNat 32 base, inEnd := BitVec.ofNat 32 stop, state := .active }

/-! ## Decoder commands -/

/-- DEC_INIT (R293), after the region check of R271. -/
def execDecInit (s : State) : Result :=
  if (Region.mk (s.argU 0) (s.argU 1)).inBuf s.buf.size then
    outcomeOf s.withDec s.withDec (decInitFn .na s.buf (decoderStart s.dec (s.argU 0) (s.argU 0 + s.argU 1)))
  else failWith .badArgument .na s

/-- DEC_VAL: `RESULT0 <- dec_val_fn()` (R294). -/
def execDecVal (s : State) : Result :=
  if s.dec.state ≠ .active then failWith .coderNotReady .na s
  else succeed (s.withResult0 (toWord (decValFn s.dec)))

/-- DEC_CONSUME (R296). -/
def execDecConsume (s : State) : Result :=
  if s.dec.state ≠ .active then failWith .coderNotReady .na s
  else if s.argU 1 < 1 ∨ s.argU 0 + s.argU 1 > Config.total then failWith .badArgument .na s
  else outcomeOf s.withDec s.withDec (consumeFn .na s.buf (s.argU 0) (s.argU 1) s.dec)

/-- What DEC_SYMB does after consume_fn: `RESULT0 <- u32(x) ; RESULT1 <- y` (R297). -/
def State.afterSymbol (s : State) (r : Int × Nat × Decoder) : State :=
  (s.withDec r.2.2).withResult01 (toWord r.1) (toWord r.2.1)

/-- DEC_SYMB (R297). -/
def execDecSymb (b : Bucket) (s : State) : Result :=
  if s.dec.state ≠ .active then failWith .coderNotReady .na s
  else outcomeOf s.withDec s.afterSymbol (decodeSymbol .na s.buf b s.dec)

end Machine
end Sys2Proof
end

