-- ==== Sys2Proof/Machine/Block.lean ====
section
/-! DEFINITION. The block compressor COMPRESS and the block decompressor DECOMPRESS (45_block.md). The working copy W of
10_state.md R60 is the `Predictor` that their loops carry: it exists only inside the one transition that a command is (R61). -/

namespace Sys2Proof
namespace Machine

/-! ## COMPRESS, phase 1: predict and quantize into scratch (R361, R362) -/

/-- One channel of phase 1: `q <- quant_fn(a_c, pr_c, F)`, QUANT_OVERFLOW(i, c) if it is no Symbol, else the scratch byte at
`ka + 4*i + c` and `rec_c` (R361). -/
def quantChannel (f ka i : Nat) (c : Fin 4) (a pr : Int) (m : Buf) : Except (Stop Buf) (Int × Buf) :=
  let q := quantFn a pr f
  if quantOverflows a pr f then .error (.raised .quantOverflow (.ofSymbol i c) m)
  else
    (orNoByte (ka + 4 * i + c.val) (m.store (ka + 4 * i + c.val) (BitVec.ofInt 8 q))).map fun m' => (dequantFn pr q f, m')

/-- `a_c <- sext_32(MemRead(sa + 16*i + 4*c, 4))` (R86, R361). -/
def sampleComponent (sa i : Nat) (c : Fin 4) (m : Buf) : Except (Stop Buf) Int :=
  (orNoByte (sa + 16 * i + 4 * c.val) (memRead m (sa + 16 * i + 4 * c.val) 4)).map fun v => s32 (BitVec.ofNat 32 v)

/-- The four components of sample i. -/
def readSample (sa i : Nat) (m : Buf) : Except (Stop Buf) (Quad Int) := do
  let w ← sampleComponent sa i 0 m
  let x ← sampleComponent sa i 1 m
  let y ← sampleComponent sa i 2 m
  let z ← sampleComponent sa i 3 m
  return ⟨w, x, y, z⟩

/-- Phase 1 for sample i, the encoder step of 44_predictor.md R328 with each symbol stored in scratch. -/
def quantSample (f sa ka i : Nat) (w : Predictor) (m : Buf) : Except (Stop Buf) (Predictor × Buf) := do
  let a ← readSample sa i m
  let pr := w.prediction
  let (r0, m) ← quantChannel f ka i 0 a.c0 pr.c0 m
  let (r1, m) ← quantChannel f ka i 1 a.c1 pr.c1 m
  let (r2, m) ← quantChannel f ka i 2 a.c2 pr.c2 m
  let (r3, m) ← quantChannel f ka i 3 a.c3 pr.c3 m
  return (w.advance ⟨r0, r1, r2, r3⟩, m)

/-- Phase 1 for `left` samples from sample i on. -/
def quantSamples (f sa ka : Nat) : (left : Nat) → (i : Nat) → Predictor → Buf → Except (Stop Buf) (Predictor × Buf)
  | 0, _, w, m => .ok (w, m)
  | n + 1, i, w, m => (quantSample f sa ka i w m).bind fun r => quantSamples f sa ka n (i + 1) r.1 r.2

/-! ## COMPRESS, phase 2: entropy coding (R361, R364) -/

/-- One symbol of phase 2: read it back from scratch (R365), take the bucket of its channel's estimate, encode it, and update
the estimate (R361). -/
def encodeChannel (ka i : Nat) (c : Fin 4) (var : Quad Word) (p : EncPort) : Except (Stop EncPort) (Quad Word × EncPort) := do
  let byte ← orNoByte (ka + 4 * i + c.val) (p.buf.load (ka + 4 * i + c.val))
  let q := s8 byte
  let b := classifyFn (var.get c)
  let p' ← encodeFn (.ofSymbol i c) (cdfFn q b) (freqFn q b) p
  return (var.set c (updateVar (var.get c) q), p')

/-- Phase 2 for the four symbols of sample i. -/
def encodeSample (ka i : Nat) (var : Quad Word) (p : EncPort) : Except (Stop EncPort) (Quad Word × EncPort) := do
  let (var, p) ← encodeChannel ka i 0 var p
  let (var, p) ← encodeChannel ka i 1 var p
  let (var, p) ← encodeChannel ka i 2 var p
  encodeChannel ka i 3 var p

/-- Phase 2 for `left` samples from sample i on. -/
def encodeSamples (ka : Nat) : (left : Nat) → (i : Nat) → Quad Word → EncPort → Except (Stop EncPort) (Quad Word × EncPort)
  | 0, _, var, p => .ok (var, p)
  | n + 1, i, var, p => (encodeSample ka i var p).bind fun r => encodeSamples ka n (i + 1) r.1 r.2

/-- Phase 2 whole: the header byte F, or OUTPUT_EXHAUSTED(n/a, n/a) if oc < 1; the encoder started on [oa + 1, oa + oc); the 4n
symbols; the flush; `ENC_STATE <- FLUSHED` (R361, R368). -/
def entropyCode (f ka n oa oc : Nat) (var : Quad Word) (p : EncPort) : Except (Stop EncPort) (Quad Word × EncPort) :=
  if oc < 1 then .error (.raised .outputExhausted .na { p with enc := { p.enc with state := .failed } })
  else do
    let m ← orNoByte oa (p.buf.store oa (BitVec.ofNat 8 f))
    let (var', p') ← encodeSamples ka n 0 var { enc := encoderStart (oa + 1) (oa + oc), buf := m }
    let p'' ← flushFn .na p'
    return (var', { p'' with enc := { p''.enc with state := .flushed } })

/-- The regions of COMPRESS: samples (sa, 16n), output (oa, oc), scratch (ka, kc) (R360). -/
def State.compressRegions (s : State) : List Region :=
  [⟨s.argU 0, 16 * s.argU 1⟩, ⟨s.argU 2, s.argU 3⟩, ⟨s.argU 4, s.argU 5⟩]

/-- Phases 1 and 2 in order, from the state's predictor, encoder and BUF; the answer is the working copy W to commit. -/
def compressBody (p : Profile) (s : State) : Except (Stop EncPort) (Predictor × EncPort) := do
  let (w, m) ← liftStop (EncPort.mk s.enc) (quantSamples (s.profile p) (s.argU 0) (s.argU 4) (s.argU 1) 0 s.pred s.buf)
  let (var, port) ← entropyCode (s.profile p) (s.argU 4) (s.argU 1) (s.argU 2) (s.argU 3) w.var ⟨s.enc, m⟩
  return ({ w with var := var }, port)

/-- The commit of COMPRESS: `P1 <- W.P1 ; P2 <- W.P2 ; VAR <- W.VAR ; RESULT0 <- OUT_PTR - oa` (R361, R366). -/
def State.afterCompress (s : State) (r : Predictor × EncPort) : State :=
  ((s.withEncPort r.2).withPred r.1).withResult0 (r.2.enc.outPtr - BitVec.ofNat 32 (s.argU 2))

/-- COMPRESS (R361): the region check, SCRATCH_TOO_SMALL if 4n > kc, then the two phases and the commit. -/
def execCompress (p : Profile) (s : State) : Result :=
  if regionCheck s.buf.size s.compressRegions then
    if 4 * s.argU 1 > s.argU 5 then failWith .scratchTooSmall (.ofSample (s.argU 5 / 4)) s
    else outcomeOf s.withEncPort s.afterCompress (compressBody p s)
  else failWith .badArgument .na s

/-! ## DECOMPRESS (R370) -/

/-- What DECOMPRESS acts on: the decoder and BUF. -/
structure DecPort where
  dec : Decoder
  buf : Buf
deriving DecidableEq, Repr

/-- One symbol of DECOMPRESS: `b <- classify_fn(W.VAR[c]) ; y <- dec_val_fn() ; q <- icdf_fn(y, b) ; consume_fn(…) ; W.VAR[c] <-
vupd_fn(W.VAR[c], q) ; rec_c <- dequant_fn(pr_c, q, F)` (R370). -/
def decodeChannel (f i : Nat) (c : Fin 4) (pr : Int) (m : Buf) (var : Quad Word) (d : Decoder) :
    Except (Stop Decoder) (Int × Quad Word × Decoder) :=
  (decodeSymbol (.ofSymbol i c) m (classifyFn (var.get c)) d).map fun r =>
    (dequantFn pr r.1 f, var.set c (updateVar (var.get c) r.1), r.2.2)

/-- The four symbols of sample i, giving its reconstruction. -/
def decodeSample (f i : Nat) (w : Predictor) (m : Buf) (d : Decoder) : Except (Stop Decoder) (Quad Int × Quad Word × Decoder) := do
  let pr := w.prediction
  let (r0, var, d) ← decodeChannel f i 0 pr.c0 m w.var d
  let (r1, var, d) ← decodeChannel f i 1 pr.c1 m var d
  let (r2, var, d) ← decodeChannel f i 2 pr.c2 m var d
  let (r3, var, d) ← decodeChannel f i 3 pr.c3 m var d
  return (⟨r0, r1, r2, r3⟩, var, d)

/-- `MemWrite(sa + 16*i + 4*c, 4, rec_c)` (R86, R370). -/
def storeComponent (sa i : Nat) (c : Fin 4) (v : Int) (p : DecPort) : Except (Stop DecPort) DecPort :=
  (orNoByte (sa + 16 * i + 4 * c.val) (memWrite p.buf (sa + 16 * i + 4 * c.val) 4 (u32 (toWord v)))).map fun m =>
    { p with buf := m }

/-- Sample i of DECOMPRESS: its four symbols, then its four components to BUF ("DECOMPRESS writes sample i only after all four
of its symbols are decoded", R371), then W advances. -/
def decompressSample (f sa i : Nat) (w : Predictor) (p : DecPort) : Except (Stop DecPort) (Predictor × DecPort) := do
  let (r, var, d) ← liftStop (fun d => { p with dec := d }) (decodeSample f i w p.buf p.dec)
  let p ← storeComponent sa i 0 r.c0 { p with dec := d }
  let p ← storeComponent sa i 1 r.c1 p
  let p ← storeComponent sa i 2 r.c2 p
  let p ← storeComponent sa i 3 r.c3 p
  return ({ w with var := var }.advance r, p)

/-- DECOMPRESS for `left` samples from sample i on. -/
def decompressSamples (f sa : Nat) : (left : Nat) → (i : Nat) → Predictor → DecPort → Except (Stop DecPort) (Predictor × DecPort)
  | 0, _, w, p => .ok (w, p)
  | n + 1, i, w, p => (decompressSample f sa i w p).bind fun r => decompressSamples f sa n (i + 1) r.1 r.2

/-- The regions of DECOMPRESS: input (ia, il), samples (sa, 16n) (R360). -/
def State.decompressRegions (s : State) : List Region := [⟨s.argU 0, s.argU 1⟩, ⟨s.argU 3, 16 * s.argU 2⟩]

/-- DECOMPRESS after its region check: INPUT_EXHAUSTED if il < 1, the header byte F and BAD_HEADER if F > 30, the decoder started
on [ia + 1, ia + il), then the n samples (R370). -/
def decompressBody (s : State) : Except (Stop DecPort) (Predictor × DecPort) :=
  if s.argU 1 < 1 then .error (.raised .inputExhausted .na ⟨{ s.dec with state := .failed }, s.buf⟩)
  else do
    let header ← orNoByte (s.argU 0) (s.buf.load (s.argU 0))
    if header.toNat > Config.qFrac then .error (.raised .badHeader .na ⟨s.dec, s.buf⟩)
    else
      let start := decoderStart s.dec (s.argU 0 + 1) (s.argU 0 + s.argU 1)
      let d ← liftStop (fun d => DecPort.mk d s.buf) (decInitFn .na s.buf start)
      decompressSamples header.toNat (s.argU 3) (s.argU 2) 0 s.pred ⟨d, s.buf⟩

/-- Store the decoder's part of the state and BUF. -/
def State.withDecPort (s : State) (p : DecPort) : State := (s.withDec p.dec).withBuf p.buf

/-- The commit of DECOMPRESS: `P1 <- W.P1 ; P2 <- W.P2 ; VAR <- W.VAR ; RESULT0 <- IN_PTR - ia` (R370, R378). -/
def State.afterDecompress (s : State) (r : Predictor × DecPort) : State :=
  ((s.withDecPort r.2).withPred r.1).withResult0 (r.2.dec.inPtr - BitVec.ofNat 32 (s.argU 0))

/-- DECOMPRESS (R370). -/
def execDecompress (s : State) : Result :=
  if regionCheck s.buf.size s.decompressRegions then outcomeOf s.withDecPort s.afterDecompress (decompressBody s)
  else failWith .badArgument .na s

end Machine
end Sys2Proof
end

