-- ==== Sys2Proof/Machine/Control.lean ====
section
/-! DEFINITION. The control commands NOP, SRST and PRST (40_control.md). -/

namespace Sys2Proof
namespace Machine

/-- NOP: `complete` (R171). -/
def execNop (s : State) : Result := succeed s

/-- SRST (R172, R173). -/
def execSrst (s : State) : Result := succeed s.softReset

/-- PRST: P1, P2 and VAR take the stream-start values (R175, R176). -/
def execPrst (s : State) : Result := succeed (s.withPred Predictor.start)

end Machine
end Sys2Proof
end

