-- ==== Sys2Proof/Machine/Dispatch.lean ====
section
/-! DEFINITION. The engine's execution of a decoded command: one arm per constructor of `Instr`, each a direct call of its meaning. -/

namespace Sys2Proof
namespace Machine

def exec (i : Instr) (s : State) : Host.Outcome State Fault Refusal :=
  match i with
  | .nop => Sys2Proof.Machine.execNop s
  | .srst => Sys2Proof.Machine.execSrst s
  | .prst => Sys2Proof.Machine.execPrst s
  | .cdf b => Sys2Proof.Machine.execCdf b s
  | .freq b => Sys2Proof.Machine.execFreq b s
  | .icdf b => Sys2Proof.Machine.execIcdf b s
  | .v2b => Sys2Proof.Machine.execV2b s
  | .b2v => Sys2Proof.Machine.execB2v s
  | .scalebits => Sys2Proof.Machine.execScalebits s
  | .qmul cnj => Sys2Proof.Machine.execQmul cnj s
  | .qexp => Sys2Proof.Machine.execQexp s
  | .encInit => Sys2Proof.Machine.execEncInit s
  | .encSym => Sys2Proof.Machine.execEncSym s
  | .encSymb b => Sys2Proof.Machine.execEncSymb b s
  | .encFlush => Sys2Proof.Machine.execEncFlush s
  | .decInit => Sys2Proof.Machine.execDecInit s
  | .decVal => Sys2Proof.Machine.execDecVal s
  | .decConsume => Sys2Proof.Machine.execDecConsume s
  | .decSymb b => Sys2Proof.Machine.execDecSymb b s
  | .predict => Sys2Proof.Machine.execPredict s
  | .quant p => Sys2Proof.Machine.execQuant p s
  | .dequant p => Sys2Proof.Machine.execDequant p s
  | .classify => Sys2Proof.Machine.execClassify s
  | .vupd => Sys2Proof.Machine.execVupd s
  | .compress p => Sys2Proof.Machine.execCompress p s
  | .decompress => Sys2Proof.Machine.execDecompress s

end Machine
end Sys2Proof
end

