-- ==== Sys2Proof/Machine/HostPort.lean ====
section
/-! DEFINITION. The host's accesses: the register map (10_state.md R58), what a host read returns and what a host write does (R31
to R55), and the 2 MiB window on the host bus (20_memory.md R82, R88 to R90). -/

namespace Sys2Proof
namespace Machine

/-- The registers of the register map (R58). -/
inductive HostReg where
  | id
  | cmd
  | status
  | intEn
  | prof0
  | prof1
  | arg (i : Fin 8)
  | result (c : Fin 4)
  | errSample
  | errChan
  | encLow
  | encLowHi
  | encRange
  | encCache
  | encCsize
  | outBase
  | outPtr
  | outEnd
  | decCode
  | decRange
  | inBase
  | inPtr
  | inEnd
  | p1 (c : Fin 4)
  | p2 (c : Fin 4)
  | var (c : Fin 4)
deriving DecidableEq, Repr

/-- The register at an offset of the register window; `none` where R58 names none (R52, R58). -/
def regAt (offset : Nat) : Option HostReg :=
  match offset with
  | 0x000 => some .id
  | 0x004 => some .cmd
  | 0x008 => some .status
  | 0x00C => some .intEn
  | 0x010 => some .prof0
  | 0x014 => some .prof1
  | 0x020 => some (.arg 0)
  | 0x024 => some (.arg 1)
  | 0x028 => some (.arg 2)
  | 0x02C => some (.arg 3)
  | 0x030 => some (.arg 4)
  | 0x034 => some (.arg 5)
  | 0x038 => some (.arg 6)
  | 0x03C => some (.arg 7)
  | 0x040 => some (.result 0)
  | 0x044 => some (.result 1)
  | 0x048 => some (.result 2)
  | 0x04C => some (.result 3)
  | 0x050 => some .errSample
  | 0x054 => some .errChan
  | 0x060 => some .encLow
  | 0x064 => some .encLowHi
  | 0x068 => some .encRange
  | 0x06C => some .encCache
  | 0x070 => some .encCsize
  | 0x074 => some .outBase
  | 0x078 => some .outPtr
  | 0x07C => some .outEnd
  | 0x080 => some .decCode
  | 0x084 => some .decRange
  | 0x088 => some .inBase
  | 0x08C => some .inPtr
  | 0x090 => some .inEnd
  | 0x0A0 => some (.p1 0)
  | 0x0A4 => some (.p1 1)
  | 0x0A8 => some (.p1 2)
  | 0x0AC => some (.p1 3)
  | 0x0B0 => some (.p2 0)
  | 0x0B4 => some (.p2 1)
  | 0x0B8 => some (.p2 2)
  | 0x0BC => some (.p2 3)
  | 0x0C0 => some (.var 0)
  | 0x0C4 => some (.var 1)
  | 0x0C8 => some (.var 2)
  | 0x0CC => some (.var 3)
  | _ => none

/-- ARGi as the host reads it (R41). -/
def State.argWord (s : State) : Fin 8 → Word
  | 0 => s.argLo.c0
  | 1 => s.argLo.c1
  | 2 => s.argLo.c2
  | 3 => s.argLo.c3
  | 4 => s.argHi.c0
  | 5 => s.argHi.c1
  | 6 => s.argHi.c2
  | 7 => s.argHi.c3

/-- Write ARGi (R41). -/
def State.writeArg (s : State) (i : Fin 8) (v : Word) : State :=
  match i with
  | 0 => { s with argLo := { s.argLo with c0 := v } }
  | 1 => { s with argLo := { s.argLo with c1 := v } }
  | 2 => { s with argLo := { s.argLo with c2 := v } }
  | 3 => { s with argLo := { s.argLo with c3 := v } }
  | 4 => { s with argHi := { s.argHi with c0 := v } }
  | 5 => { s with argHi := { s.argHi with c1 := v } }
  | 6 => { s with argHi := { s.argHi with c2 := v } }
  | 7 => { s with argHi := { s.argHi with c3 := v } }

/-- The current value of a register as the host reads it (R31 to R51, R58). CMD "reads as 0x00000000" (R32). -/
def State.readReg (s : State) : HostReg → Word
  | .id => Config.idValue
  | .cmd => 0#32
  | .status => s.statusWord
  | .intEn => s.intEn.word
  | .prof0 => BitVec.ofNat 32 s.prof0.val
  | .prof1 => BitVec.ofNat 32 s.prof1.val
  | .arg i => s.argWord i
  | .result c => s.result.get c
  | .errSample => s.errSample
  | .errChan => s.errChan
  | .encLow => s.enc.low.setWidth 32
  | .encLowHi => BitVec.ofNat 32 (s.enc.low.toNat / 2 ^ 32)
  | .encRange => s.enc.range
  | .encCache => s.enc.cache.setWidth 32
  | .encCsize => s.enc.csize
  | .outBase => s.enc.outBase
  | .outPtr => s.enc.outPtr
  | .outEnd => s.enc.outEnd
  | .decCode => s.dec.code
  | .decRange => s.dec.range
  | .inBase => s.dec.inBase
  | .inPtr => s.dec.inPtr
  | .inEnd => s.dec.inEnd
  | .p1 c => s.pred.p1.get c
  | .p2 c => s.pred.p2.get c
  | .var c => s.pred.var.get c

/-- The registers whose reads return the current value even while BUSY = 1: "ID, STATUS, INT_EN, PROF0, PROF1 and ARG0 to ARG7"
(R55), and CMD, which always reads 0 (R32). -/
def HostReg.stableWhileBusy : HostReg → Bool
  | .id | .cmd | .status | .intEn | .prof0 | .prof1 | .arg _ => true
  | _ => false

/-- A host read of a register: the current value, or while BUSY = 1 a free draw for a register the engine writes (R55, log entry
3). "A read has no side effect": only the model's own `rdata` and `draws` change. -/
def State.hostReadReg (s : State) (r : HostReg) : State :=
  if s.status.busy && !r.stableWhileBusy then
    { s.returnToHost (Config.busyRead s.draws) with draws := s.draws + 1 }
  else s.returnToHost (s.readReg r)

/-- What a write of `w` stores in PROF0 or PROF1: "min(w[4:0], 30), so 31 is stored as 30" (R40). -/
def profOfWord (w : Word) : Fin 31 :=
  ⟨min (w.extractLsb' 0 5).toNat 30, Nat.lt_succ_of_le (Nat.min_le_right _ _)⟩

/-- A host write to a register while BUSY = 0: CMD accepts a command (R32, R401), STATUS clears its W1C bits (R35 to R37), INT_EN,
PROF0, PROF1 and ARG are written (R39 to R41), and a write to any other register "is ignored" (R53). -/
def State.writeReg (s : State) (r : HostReg) (w : Word) : State :=
  match r with
  | .cmd => s.accept w
  | .status => { s with status := s.status.writeOneToClear w }
  | .intEn => { s with intEn := IntEn.ofWord w }
  | .prof0 => { s with prof0 := profOfWord w }
  | .prof1 => { s with prof1 := profOfWord w }
  | .arg i => s.writeArg i w
  | _ => s

/-- A host write to a register: while BUSY = 1, a write to any mapped register other than INT_EN is dropped and sets OVR (R54),
and INT_EN is written at once (R39). -/
def State.hostWriteReg (s : State) (r : HostReg) (w : Word) : State :=
  if s.status.busy && r ≠ .intEn then s.markOverrun else s.writeReg r w

/-! ## The window (R82) -/

/-- The offset of BUF byte 0 in the window, and the window's size (R82). -/
def bufOffset : Nat := 0x100000
def windowSize : Nat := 0x200000

/-- The size of the register window (R82). -/
def regWindowSize : Nat := 0x1000

/-- Where a host access of `width` bytes at a bus address goes. -/
inductive Target where
  /-- A register, or an unmapped offset of the register window. -/
  | register (r : Option HostReg)
  /-- BUF, at this address. -/
  | buf (addr : Nat)
  /-- A reserved range of the window: "reads return 0, writes are ignored" (R82). -/
  | reserved
  /-- Outside the core's window: no access of this core. -/
  | elsewhere
  /-- An access that the spec has a model refuse. -/
  | refuse (r : Refusal)
deriving DecidableEq, Repr

/-- Whether an access of `width` bytes at an offset touches BUF. -/
def touchesBuf (size width offset : Nat) : Bool :=
  decide (offset < bufOffset + size) && decide (bufOffset < offset + width)

/-- "Host accesses to the BUF window are 1, 2 or 4 bytes wide and naturally aligned", and none "straddles BUF_SIZE" (R89). -/
def bufAccessOk (size width offset : Nat) : Bool :=
  (width == 1 || width == 2 || width == 4) && offset % width == 0 && decide (offset + width ≤ bufOffset + size)

/-- The target of an access at an offset of the window (R82, R88, R89, R90). -/
def targetAt (s : State) (width addr offset : Nat) : Target :=
  if offset < regWindowSize then
    if width = 4 ∧ offset % 4 = 0 then .register (regAt offset) else .refuse (.registerAccess width addr)
  else if touchesBuf s.buf.size width offset then
    if s.status.busy then .refuse (.bufAccessWhileBusy addr)
    else if bufAccessOk s.buf.size width offset then .buf (offset - bufOffset)
    else .refuse (.bufAccess width addr)
  else if offset < windowSize then .reserved
  else .elsewhere

/-- The target of an access at a bus address: the window starts at BASE_ADDR (R82). -/
def targetOf (s : State) (width addr : Nat) : Target :=
  if addr < s.baseAddr then .elsewhere else targetAt s width addr (addr - s.baseAddr)

/-- A host read (R52, R55, R82, R89). The value returned is zero-extended to 32 bits. -/
def hostRead (s : State) (width addr : Nat) : Result :=
  match targetOf s width addr with
  | .register (some r) => .next (s.hostReadReg r)
  | .register none => .next (s.returnToHost 0#32)
  | .buf a =>
    match memRead s.buf a width with
    | some v => .next (s.returnToHost (BitVec.ofNat 32 v))
    | none => .fault (.noSuchBufByte a)
  | .reserved => .next (s.returnToHost 0#32)
  | .elsewhere => .next s
  | .refuse r => .refused r

/-- A host write (R52 to R54, R82, R89). A BUF write stores the low `width` bytes of the value. -/
def hostWrite (s : State) (width addr : Nat) (value : Word) : Result :=
  match targetOf s width addr with
  | .register (some r) => .next (s.hostWriteReg r value)
  | .register none => .next s
  | .buf a =>
    match memWrite s.buf a width value.toNat with
    | some m => .next (s.withBuf m)
    | none => .fault (.noSuchBufByte a)
  | .reserved => .next s
  | .elsewhere => .next s
  | .refuse r => .refused r

end Machine
end Sys2Proof
end

