-- ==== Sys2Proof/Machine/Engine.lean ====
section
/-! DEFINITION. One step of the machine: the engine running the command in its latch (60_exceptions.md R401, R402), and the
order in which the two agents of 00_scope.md R5, the host and the engine, move. -/

namespace Sys2Proof
namespace Machine

/-- The engine's execution of the latched command: "decode: if latch is illegal, raise ILLEGAL_COMMAND", else the command (R401,
R402). -/
def runLatched (s : State) : Result :=
  match decode s.latch with
  | .ok i => exec i s
  | .error _ => failWith .illegalCommand .na s

/-- The engine's move: while BUSY = 1 it runs the latched command to completion; otherwise it is idle (R425). -/
def engineMove (s : State) : Result := if s.status.busy then runLatched s else .next s

/-- One event from outside the core. -/
def deliver (i : Input) (s : State) : Result :=
  match i with
  | .read width addr => hostRead s width addr
  | .write width addr value => hostWrite s width addr value
  | .reset => .next s.resetInput
  | .engine => engineMove s

/-- One step: the oldest event that has yet to reach the core, or the engine's move if there is none. -/
def advance (s : State) : Result :=
  match s.inputs with
  | [] => engineMove s
  | i :: rest => deliver i (s.withInputs rest)

/-- Make the engine's move the next step, whatever waits outside. -/
def engineFirst : List Input → List Input
  | [] => []
  | i :: rest => .engine :: i :: rest

end Machine
end Sys2Proof
end

