-- ==== Sys2Proof/Machine/Step.lean ====
section
/-! DEFINITION. The step function, and how one command word is put where the next step takes it from. -/

namespace Sys2Proof
namespace Machine

/-- One step of the machine. -/
def step (s : State) : Host.Outcome State Fault Refusal := advance s

/-- The state in which the command word of an opcode-table row has just been accepted (60_exceptions.md R401), so that the next
step is the engine's and runs it: the core fetches no instruction (20_memory.md R105), it takes its command from the latch that
a write to CMD fills (log entry 5). -/
def State.withFetchWord (s : State) (nbits w : Nat) : State :=
  (s.accept (BitVec.ofNat 32 (commandWordOfRow nbits w))).withInputs (engineFirst s.inputs)

end Machine
end Sys2Proof
end

