-- ==== Sys2Proof/Safety.lean ====
section
/-! DEFINITION. The terms that claims use: the invariant of the machine, what a safe step is, how an outcome is read, and the
contents of BUF and of the range encoder as numbers, samples and symbols. Nothing here is part of the machine. -/

namespace Sys2Proof
namespace Machine

/-! ## The invariant -/

/-- The encoder's invariant: its pointers in order inside BUF (R47), and while it is ACTIVE the width of its interval (R45, R273),
the bound on `low` (R272), at least one byte held back (R275), and no carry out of a held-back 0xFF (the reason that R275's
`(temp + carry) mod 256` loses nothing; DEDUCED, log entry 8). -/
abbrev Encoder.Inv (size : Nat) (e : Encoder) : Prop :=
  u32 e.outBase ≤ u32 e.outPtr ∧ u32 e.outPtr ≤ u32 e.outEnd ∧ u32 e.outEnd ≤ size ∧
    (e.state = .active →
      Config.rcTop ≤ u32 e.range ∧ e.low.toNat + u32 e.range < 2 ^ 33 ∧ 1 ≤ u32 e.csize ∧
        (e.cache = 0xFF#8 → e.low.toNat + u32 e.range ≤ 2 ^ 32))

/-- The decoder's invariant: its pointers in order inside BUF (R49), and while it is ACTIVE the width of its interval (R48, R273). -/
abbrev Decoder.Inv (size : Nat) (d : Decoder) : Prop :=
  u32 d.inBase ≤ u32 d.inPtr ∧ u32 d.inPtr ≤ u32 d.inEnd ∧ u32 d.inEnd ≤ size ∧ (d.state = .active → Config.rcTop ≤ u32 d.range)

/-- The status invariant: "ERRCODE is never nonzero while ERR = 0" (R36) and every error has a code (R404); "no pending bit is set
during BUSY" (R411); MODEL_INVARIANT is "never raised" (R405). -/
abbrev Status.Inv (st : Status) : Prop :=
  (st.err = true ↔ st.errcode ≠ .none) ∧ (st.busy = true → st.done = false ∧ st.err = false) ∧ st.errcode ≠ .modelInvariant

/-- The variance estimates' invariant: each "stays at most 2^30 + 15" (R325). -/
abbrev Predictor.Inv (w : Predictor) : Prop := ∀ c : Fin 4, u32 (w.var.get c) ≤ 2 ^ 30 + 15

/-- BUF's invariant: its canonical form, and BUF_SIZE in [1, 2^20] (R80). -/
abbrev Buf.Inv (m : Buf) : Prop := m.wf = true ∧ 1 ≤ m.size ∧ m.size ≤ Config.bufSizeMax

/-- The invariant of the whole machine. -/
abbrev State.Inv (s : State) : Prop :=
  s.enc.Inv s.buf.size ∧ s.dec.Inv s.buf.size ∧ s.status.Inv ∧ s.pred.Inv ∧ s.buf.Inv

/-! ## Outcomes -/

/-- An outcome is safe if it is no fault: the engine never accesses a byte that does not exist. A refusal is safe: it is a host
access that the spec gives no step (R88 to R90). -/
def Result.Safe : Result → Prop
  | .fault _ => False
  | _ => True

/-- A command, run from a state in which it has been accepted, ended with an error (R404). -/
abbrev State.failed (t : State) : Prop := t.status.err = true

/-- A command can be taken to have been accepted in s: R401 leaves ERR and ERRCODE at 0. -/
abbrev State.accepted (s : State) : Prop := s.status.err = false ∧ s.status.errcode = .none

/-! ## Contents as numbers -/

/-- The number that the n bytes from a make, the least significant first (R84). -/
def Buf.number (m : Buf) (a : Nat) : Nat → Nat
  | 0 => 0
  | n + 1 => (m.byte a).toNat + 256 * m.number (a + 1) n

/-- The number that the n bytes from a make, the most significant first: how the range coder's bytes are read (R291). -/
def Buf.bigNumber (m : Buf) (a : Nat) : Nat → Nat
  | 0 => 0
  | n + 1 => 256 * m.bigNumber a n + (m.byte (a + n)).toNat

/-- Where the encoder stands in the code it is writing, as one number: the bytes written since OUT_BASE, then the ENC_CSIZE bytes
held back (the cache byte and then 0xFF bytes, R46), then the four bytes of `low`, whose bit 32 is a carry into them (R275). -/
def EncPort.codeValue (p : EncPort) : Nat :=
  (p.buf.bigNumber (u32 p.enc.outBase) (u32 p.enc.outPtr - u32 p.enc.outBase) * 256 ^ u32 p.enc.csize
      + ((p.enc.cache.toNat + 1) * 256 ^ (u32 p.enc.csize - 1) - 1)) * 2 ^ 32 + p.enc.low.toNat

/-! ## Samples and symbols (R86, R87, R328) -/

/-- Component c of sample i of the sample region at sa (R86). -/
def Buf.component (m : Buf) (sa i : Nat) (c : Fin 4) : Int := s32 (BitVec.ofNat 32 (m.number (sa + 16 * i + 4 * c.val) 4))

/-- Sample i of the sample region at sa (R86). -/
def Buf.sample (m : Buf) (sa i : Nat) : Quad Int :=
  ⟨m.component sa i 0, m.component sa i 1, m.component sa i 2, m.component sa i 3⟩

/-- Symbol (i, c) of the scratch region at ka (R87). -/
def Buf.symbol (m : Buf) (ka i : Nat) (c : Fin 4) : Int := s8 (m.byte (ka + 4 * i + c.val))

/-- The symbols of a sample, if none overflows: the `q` of enc_step (R328). -/
def symbolsOf (f : Nat) (w : Predictor) (a : Quad Int) : Option (Quad Int) :=
  let pr := w.prediction
  if firstChannel (fun c => quantOverflows (a.get c) (pr.get c) f) = none then
    some ⟨quantFn a.c0 pr.c0 f, quantFn a.c1 pr.c1 f, quantFn a.c2 pr.c2 f, quantFn a.c3 pr.c3 f⟩
  else none

/-- The reconstruction of a sample from its symbols: the `rec` of dec_step (R328). -/
def reconstruct (f : Nat) (w : Predictor) (q : Quad Int) : Quad Int :=
  let pr := w.prediction
  ⟨dequantFn pr.c0 q.c0 f, dequantFn pr.c1 q.c1 f, dequantFn pr.c2 q.c2 f, dequantFn pr.c3 q.c3 f⟩

/-- The four estimates after a sample's symbols (R325, R326). -/
def updateVars (v : Quad Word) (q : Quad Int) : Quad Word :=
  ⟨updateVar v.c0 q.c0, updateVar v.c1 q.c1, updateVar v.c2 q.c2, updateVar v.c3 q.c3⟩

/-- dec_step with the estimates' update: the predictor state after a sample whose symbols are q (R328, R329). -/
def stepWith (f : Nat) (w : Predictor) (q : Quad Int) : Predictor :=
  { w with var := updateVars w.var q }.advance (reconstruct f w q)

/-- The predictor state after a block whose symbols are qs (R329, R366). -/
def stepsWith (f : Nat) : Predictor → List (Quad Int) → Predictor
  | w, [] => w
  | w, q :: rest => stepsWith f (stepWith f w q) rest

/-- The symbols of a block, sample by sample, if none overflows (R328, R362). -/
def blockSymbols (f : Nat) : Predictor → List (Quad Int) → Option (List (Quad Int))
  | _, [] => some []
  | w, a :: rest => (symbolsOf f w a).bind fun q => (blockSymbols f (stepWith f w q) rest).map fun qs => q :: qs

/-- The n samples from sample i of the sample region at sa. -/
def Buf.samples (m : Buf) (sa : Nat) : (n : Nat) → (i : Nat) → List (Quad Int)
  | 0, _ => []
  | n + 1, i => m.sample sa i :: m.samples sa n (i + 1)

/-- The samples that a block's symbols reconstruct (R328, R379). -/
def reconstructions (f : Nat) : Predictor → List (Quad Int) → List (Quad Int)
  | _, [] => []
  | w, q :: rest => reconstruct f w q :: reconstructions f (stepWith f w q) rest

/-! ## Commands as the host issues them (R401, R139) -/

/-- The acceptance of a command's word and the command's execution, as one event of the host's program. -/
def State.issue (s : State) (i : Instr) : Result := exec i (s.accept (encode i))

/-- The command ended in t without an error: "STATUS.DONE=1 with STATUS.ERR=0" (R57). -/
def Result.succeededIn (r : Result) (t : State) : Prop := r = .next t ∧ t.status.err = false

/-- One thing that an encoding holds: a symbol in a bucket (ENC_SYMB, DEC_SYMB), or an interval given directly (ENC_SYM, and DEC_VAL
with DEC_CONSUME). -/
inductive CodeItem where
  | symbol (b : Bucket) (x : Int)
  | interval (cum fr : Nat)
deriving DecidableEq, Repr

/-- A Symbol (R18), or an interval that passes the check of R278. -/
def CodeItem.legal : CodeItem → Prop
  | .symbol _ x => isSymbol x = true
  | .interval cum fr => 1 ≤ fr ∧ cum + fr ≤ Config.total

/-- The command that encodes an item, after the host wrote its operands (R278, R279). -/
def encodeItem (s : State) : CodeItem → Result
  | .symbol b x => (s.writeArg 0 (toWord x)).issue (.encSymb b)
  | .interval cum fr => ((s.writeArg 0 (BitVec.ofNat 32 cum)).writeArg 1 (BitVec.ofNat 32 fr)).issue .encSym

/-- The items are encoded one after the other, each without an error, from s to t. -/
def encodesTo (s t : State) : List CodeItem → Prop
  | [] => t = s
  | i :: rest => ∃ u, (encodeItem s i).succeededIn u ∧ encodesTo u t rest

/-- The decoder recovers an item, from s to t: DEC_SYMB returns the symbol (R297), or DEC_VAL returns a value in the interval (R292)
and DEC_CONSUME takes it (R296). -/
def recoversItem (s t : State) : CodeItem → Prop
  | .symbol b x => (s.issue (.decSymb b)).succeededIn t ∧ t.result.c0 = toWord x
  | .interval cum fr => ∃ v, (s.issue .decVal).succeededIn v ∧ cum ≤ u32 v.result.c0 ∧ u32 v.result.c0 < cum + fr ∧
      (((v.writeArg 0 (BitVec.ofNat 32 cum)).writeArg 1 (BitVec.ofNat 32 fr)).issue .decConsume).succeededIn t

/-- The decoder recovers the items one after the other, from s to t. -/
def recoversTo (s t : State) : List CodeItem → Prop
  | [] => t = s
  | i :: rest => ∃ u, recoversItem s u i ∧ recoversTo u t rest

/-- ENC_INIT, issued with the output region of l bytes at a (R277). -/
def State.encodeInto (s : State) (a l : Word) : Result := ((s.writeArg 0 a).writeArg 1 l).issue .encInit

/-- DEC_INIT, issued with the input region of l bytes at a (R293). -/
def State.decodeFrom (s : State) (a l : Word) : Result := ((s.writeArg 0 a).writeArg 1 l).issue .decInit

/-- The four symbols of a sample as coder items, each in the bucket of its channel's estimate before the sample (R326, R364: a channel's
estimate changes only with the channel's own symbols). -/
def sampleItems (var : Quad Word) (q : Quad Int) : List CodeItem :=
  [.symbol (classifyFn var.c0) q.c0, .symbol (classifyFn var.c1) q.c1, .symbol (classifyFn var.c2) q.c2, .symbol (classifyFn var.c3) q.c3]

/-- The symbols of a block as coder items, from the predictor state w on (R364, R370). -/
def blockItems (f : Nat) : Predictor → List (Quad Int) → List CodeItem
  | _, [] => []
  | w, q :: rest => sampleItems w.var q ++ blockItems f (stepWith f w q) rest

/-! ## What a command may write (R42, R64, R134, R303) -/

/-- How many of RESULT0 to RESULT3 a command lists as outputs (R134). -/
def resultCount : Instr → Nat
  | .nop | .srst | .prst | .encInit | .encSym | .encSymb _ | .decInit | .decConsume => 0
  | .cdf _ | .freq _ | .v2b | .b2v | .scalebits | .encFlush | .decVal | .vupd | .compress _ | .decompress => 1
  | .decSymb _ => 2
  | .icdf _ => 3
  | .qmul _ | .qexp | .predict | .quant _ | .dequant _ | .classify => 4

/-- The commands that may write an encoder register (R38, R303). -/
def writesEncoder : Instr → Bool
  | .srst | .encInit | .encSym | .encSymb _ | .encFlush | .compress _ => true
  | _ => false

/-- The commands that may write a decoder register (R38, R294, R303). -/
def writesDecoder : Instr → Bool
  | .srst | .decInit | .decConsume | .decSymb _ | .decompress => true
  | _ => false

/-- The commands that may write a byte of BUF (R81, R303). -/
def writesBuffer : Instr → Bool
  | .encSym | .encSymb _ | .encFlush | .compress _ | .decompress => true
  | _ => false

/-- The commands that may write the committed predictor state (R64). -/
def writesPredictor : Instr → Bool
  | .srst | .prst | .compress _ | .decompress => true
  | _ => false

end Machine
end Sys2Proof
end

