-- ==== Sys2Proof/Certificates/Slice0/Obligations.lean ====
section
/-! DEFINITION. The statements for the provers, from the numbered rules of spec/, and the tables that they hold the model against:
the register map (10_state.md R58), which command raises which error (60_exceptions.md R400), the coder-state transitions
(43_range_coder.md R270), and the block region check (45_block.md R360). -/

namespace Sys2Proof
namespace Machine

/-! ## Tables of the spec -/

/-- The Access column of R58. -/
inductive Access where
  | ro
  | rw
  | wo
  | w1c
  | warl
deriving DecidableEq, Repr

/-- A row of the register map (R58): offset, register, access, the bits used, and the reset value. -/
structure RegisterRow where
  offset : Nat
  reg : HostReg
  access : Access
  used : Word
  reset : Word
deriving DecidableEq, Repr

/-- The control and operand rows of R58. -/
def registerRowsLow : List RegisterRow :=
  [ ⟨0x000, .id, .ro, 0xFFFFFFFF#32, 0x45424E31#32⟩,
    ⟨0x004, .cmd, .wo, 0xFFFFFFFF#32, 0#32⟩,
    ⟨0x008, .status, .w1c, 0x000FFFFF#32, 0#32⟩,
    ⟨0x00C, .intEn, .rw, 0x00000003#32, 0#32⟩,
    ⟨0x010, .prof0, .warl, 0x0000001F#32, 14#32⟩,
    ⟨0x014, .prof1, .warl, 0x0000001F#32, 10#32⟩ ]
  ++ (List.finRange 8).map (fun i => ⟨0x020 + 4 * i.val, .arg i, .rw, 0xFFFFFFFF#32, 0#32⟩)
  ++ (List.finRange 4).map (fun c => ⟨0x040 + 4 * c.val, .result c, .ro, 0xFFFFFFFF#32, 0#32⟩)

/-- The error and coder rows of R58. -/
def registerRowsCoder : List RegisterRow :=
  [ ⟨0x050, .errSample, .ro, 0xFFFFFFFF#32, 0#32⟩,
    ⟨0x054, .errChan, .ro, 0xFFFFFFFF#32, 0#32⟩,
    ⟨0x060, .encLow, .ro, 0xFFFFFFFF#32, 0#32⟩,
    ⟨0x064, .encLowHi, .ro, 0x00000001#32, 0#32⟩,
    ⟨0x068, .encRange, .ro, 0xFFFFFFFF#32, 0xFFFFFFFF#32⟩,
    ⟨0x06C, .encCache, .ro, 0x000000FF#32, 0#32⟩,
    ⟨0x070, .encCsize, .ro, 0xFFFFFFFF#32, 1#32⟩,
    ⟨0x074, .outBase, .ro, 0xFFFFFFFF#32, 0#32⟩,
    ⟨0x078, .outPtr, .ro, 0xFFFFFFFF#32, 0#32⟩,
    ⟨0x07C, .outEnd, .ro, 0xFFFFFFFF#32, 0#32⟩,
    ⟨0x080, .decCode, .ro, 0xFFFFFFFF#32, 0#32⟩,
    ⟨0x084, .decRange, .ro, 0xFFFFFFFF#32, 0xFFFFFFFF#32⟩,
    ⟨0x088, .inBase, .ro, 0xFFFFFFFF#32, 0#32⟩,
    ⟨0x08C, .inPtr, .ro, 0xFFFFFFFF#32, 0#32⟩,
    ⟨0x090, .inEnd, .ro, 0xFFFFFFFF#32, 0#32⟩ ]

/-- The predictor rows of R58: P1 and P2 reset to the identity quaternion, VAR to 2^-6. -/
def registerRowsPredictor : List RegisterRow :=
  (List.finRange 4).map (fun c => ⟨0x0A0 + 4 * c.val, .p1 c, .ro, 0xFFFFFFFF#32, if c = 0 then 0x40000000#32 else 0#32⟩)
  ++ (List.finRange 4).map (fun c => ⟨0x0B0 + 4 * c.val, .p2 c, .ro, 0xFFFFFFFF#32, if c = 0 then 0x40000000#32 else 0#32⟩)
  ++ (List.finRange 4).map (fun c => ⟨0x0C0 + 4 * c.val, .var c, .ro, 0xFFFFFFFF#32, 0x00000400#32⟩)

/-- The register map, R58. -/
def registerRows : List RegisterRow := registerRowsLow ++ registerRowsCoder ++ registerRowsPredictor

/-- What the access code of R58 says of host writes and reads of a register, in every state. -/
def Access.holds : Access → HostReg → Word → Prop
  | .ro, r, _ => ∀ (s : State) (w : Word), s.writeReg r w = s
  | .rw, r, used => ∀ (s : State) (w : Word), (s.writeReg r w).readReg r = w &&& used
  | .wo, r, _ => ∀ s : State, s.readReg r = 0#32
  | .w1c, r, _ => ∀ (s : State) (w : Word), (s.writeReg r w).readReg r &&& 0x0000000E#32 = s.readReg r &&& 0x0000000E#32 &&& ~~~w
  | .warl, r, _ => ∀ (s : State) (w : Word), u32 ((s.writeReg r w).readReg r) ≤ 30 ∧ (u32 w ≤ 30 → (s.writeReg r w).readReg r = w)

/-- The n/a of R43 and R400. -/
abbrev na : Word := 0xFFFFFFFF#32

/-- A site (i, c) of a block of n samples (R400). -/
def siteIn (n : Nat) (sample chan : Word) : Prop := u32 sample < n ∧ u32 chan < 4

/-- The table of R400: which command raises which code, with which ERR_SAMPLE and ERR_CHAN. -/
def errorAllowed (i : Instr) (s : State) (e : ErrorCode) (sample chan : Word) : Prop :=
  match e with
  | .none | .modelInvariant | .illegalCommand => False
  | .quantOverflow =>
    match i with
    | .quant _ => sample = na ∧ u32 chan < 4
    | .compress _ => siteIn (s.argU 1) sample chan
    | _ => False
  | .outputExhausted =>
    match i with
    | .encSym | .encSymb _ | .encFlush => sample = na ∧ chan = na
    | .compress _ => (sample = na ∧ chan = na) ∨ siteIn (s.argU 1) sample chan
    | _ => False
  | .scratchTooSmall =>
    match i with
    | .compress _ => u32 sample = s.argU 5 / 4 ∧ chan = na
    | _ => False
  | .badArgument =>
    match i with
    | .dequant _ => sample = na ∧ u32 chan < 4
    | .icdf _ | .encInit | .encSym | .encSymb _ | .decInit | .decConsume | .vupd | .compress _ | .decompress =>
      sample = na ∧ chan = na
    | _ => False
  | .inputExhausted =>
    match i with
    | .decInit | .decConsume | .decSymb _ => sample = na ∧ chan = na
    | .decompress => (sample = na ∧ chan = na) ∨ siteIn (s.argU 2) sample chan
    | _ => False
  | .badHeader => i = .decompress ∧ sample = na ∧ chan = na
  | .coderNotReady =>
    match i with
    | .encSym | .encSymb _ | .encFlush | .decVal | .decConsume | .decSymb _ => sample = na ∧ chan = na
    | _ => False

/-- The encoder-state column of R270: the state after a command that ended with error e, or `none` for success. -/
def encStateAfter (i : Instr) (before : EncState) (e : ErrorCode) : EncState :=
  match i with
  | .srst => .idle
  | .encInit => if e = .none then .active else before
  | .encSym | .encSymb _ => if e = .outputExhausted then .failed else before
  | .encFlush | .compress _ => if e = .outputExhausted then .failed else if e = .none then .flushed else before
  | _ => before

/-- The decoder-state column of R270. -/
def decStateAfter (i : Instr) (before : DecState) (e : ErrorCode) : DecState :=
  match i with
  | .srst => .idle
  | .decInit | .decompress => if e = .none then .active else if e = .inputExhausted then .failed else before
  | .decConsume | .decSymb _ => if e = .inputExhausted then .failed else before
  | _ => before

/-- The commands that require ENC_STATE = ACTIVE (R270). -/
def needsEncoder : Instr → Bool
  | .encSym | .encSymb _ | .encFlush => true
  | _ => false

/-- The commands that require DEC_STATE = ACTIVE (R270). -/
def needsDecoder : Instr → Bool
  | .decVal | .decConsume | .decSymb _ => true
  | _ => false

/-- "Regions [a, a+l) and [b, b+m) overlap when l > 0, m > 0, a < b + m and b < a + l" (R360). -/
def overlap (a l b m : Nat) : Prop := 0 < l ∧ 0 < m ∧ a < b + m ∧ b < a + l

/-- The block region check of COMPRESS (R360). -/
def compressChecked (s : State) : Prop :=
  s.argU 0 + 16 * s.argU 1 ≤ s.buf.size ∧ s.argU 2 + s.argU 3 ≤ s.buf.size ∧ s.argU 4 + s.argU 5 ≤ s.buf.size ∧
    ¬overlap (s.argU 0) (16 * s.argU 1) (s.argU 2) (s.argU 3) ∧ ¬overlap (s.argU 0) (16 * s.argU 1) (s.argU 4) (s.argU 5) ∧
    ¬overlap (s.argU 2) (s.argU 3) (s.argU 4) (s.argU 5)

/-- The block region check of DECOMPRESS (R360). -/
def decompressChecked (s : State) : Prop :=
  s.argU 0 + s.argU 1 ≤ s.buf.size ∧ s.argU 3 + 16 * s.argU 2 ≤ s.buf.size ∧
    ¬overlap (s.argU 0) (s.argU 1) (s.argU 3) (16 * s.argU 2)

/-- The byte at b is outside the l bytes from a. -/
def outside (b a l : Nat) : Prop := b < a ∨ a + l ≤ b

/-- The success of a command that wrote the RESULT registers: BUSY 0, DONE 1, nothing else (R403). -/
def State.doneWith (s : State) (r : Quad Word) : State :=
  { s with result := r, status := { s.status with busy := false, done := true } }

/-- The error completion with code e and site (sample, chan) (R404). -/
def State.failedWith (s : State) (e : ErrorCode) (sample chan : Word) : State :=
  { s with errSample := sample, errChan := chan, status := { s.status with busy := false, done := true, err := true, errcode := e } }

/-- The only parts of the machine that a coder or block command may have changed (R303, R361, R370). -/
def keptOutsideCoder (s t : State) : Prop :=
  t = { s with status := t.status, result := t.result, enc := t.enc, dec := t.dec, pred := t.pred, buf := t.buf,
               errSample := t.errSample, errChan := t.errChan }

end Machine
end Sys2Proof

open Sys2Proof Sys2Proof.Machine

/-! ## Encoding -/

/-- Decoding the word of a command gives the command back, for every command with every operand (R131, R135, R136). -/
def Obligations.DecodeOfEncode : Prop := ∀ i : Instr, decode (encode i) = .ok i

/-- Each word has one meaning and each command one word: a legal word is the word of the command it decodes to (R132, R136). -/
def Obligations.EncodeOfDecode : Prop := ∀ (w : Word) (i : Instr), decode w = .ok i → encode i = w

/-- R132: the words that decode are exactly those some row of R135 matches, and the engine completes every other word with
ILLEGAL_COMMAND and changes nothing else. -/
def Obligations.LegalWordsAreTheRows : Prop :=
  ∀ w : Word,
    ((∃ i, decode w = .ok i) ↔ ∃ r ∈ opcodeRows, w &&& r.mask = r.pattern) ∧
      ((¬∃ r ∈ opcodeRows, w &&& r.mask = r.pattern) →
        ∀ s : State, s.status.busy = true → s.latch = w → engineMove s = .next (s.failedWith .illegalCommand na na))

/-- The worked words of R136 and of 95_test_vectors.md decode to the commands they stand for. -/
def Obligations.DecodedWords : Prop :=
  decode 0x00000310#32 = .ok (.cdf 3) ∧ decode 0x00000F12#32 = .ok (.icdf 15) ∧ decode 0x00001050#32 = .ok (.compress .prof1) ∧
    decode 0x00000050#32 = .ok (.compress .prof0) ∧ decode 0x00002020#32 = .ok (.qmul true) ∧
    decode 0x00000632#32 = .ok (.encSymb 6) ∧ decode 0x00000051#32 = .ok .decompress ∧ decode 0x00000000#32 = .ok .nop ∧
    decode 0x00000044#32 = .ok .vupd ∧ decode 0x00001042#32 = .ok (.dequant .prof1)

/-! ## The step -/

/-- While BUSY = 1 and no host event is first, the step runs the command that the latch decodes to (R59, R401). Which of the host's
accesses and the engine's completion comes first is log entry 5. -/
def Obligations.StepRunsTheLatchedCommand : Prop :=
  ∀ (s : State) (i : Instr), s.status.busy = true → decode s.latch = .ok i →
    (s.inputs = [] → step s = exec i s) ∧ (∀ rest, s.inputs = .engine :: rest → step s = exec i (s.withInputs rest))

/-- A host write of a command's word to CMD while BUSY = 0 is its acceptance, and the step after it executes it (R32, R401); while
nothing is accepted the core is idle and loses no state (R425). -/
def Obligations.CommandRunsInTwoSteps : Prop :=
  (∀ (s : State) (i : Instr) (rest : List Input), s.status.busy = false →
    s.inputs = .write 4 (s.baseAddr + 0x004) (encode i) :: rest →
      let t := { s with inputs := rest, latch := encode i,
                        status := { busy := true, done := false, err := false, ovr := s.status.ovr, errcode := .none } }
      step s = .next t ∧ (rest = [] → step t = exec i t)) ∧
    ∀ s : State, s.status.busy = false → s.inputs = [] → step s = .next s

/-- R402: an illegal command word completes with ILLEGAL_COMMAND(n/a, n/a) and changes nothing but STATUS, ERR_SAMPLE and ERR_CHAN;
the outcome names no ARG register and no BUF byte. -/
def Obligations.IllegalCommandCompletes : Prop :=
  ∀ s : State, s.status.busy = true → s.inputs = [] → wellFormedWord s.latch = false →
    step s = .next { s with errSample := 0xFFFFFFFF#32, errChan := 0xFFFFFFFF#32,
                            status := { s.status with busy := false, done := true, err := true, errcode := .illegalCommand } }

/-! ## The host's registers -/

/-- R52 and R58: every row of the register map is where R58 puts it, with its access, its used bits and its reset value; no other
offset of the window is mapped, and one that is not reads 0 and ignores writes. -/
def Obligations.RegisterMap : Prop :=
  (∀ row ∈ registerRows, regAt row.offset = some row.reg ∧ State.reset.readReg row.reg = row.reset ∧
      (∀ s : State, s.readReg row.reg &&& ~~~row.used = 0#32) ∧ row.access.holds row.reg row.used) ∧
    (∀ (offset : Nat) (r : HostReg), regAt offset = some r → ∃ row ∈ registerRows, row.offset = offset ∧ row.reg = r) ∧
    ∀ (s : State) (offset : Nat), offset < 0x1000 → offset % 4 = 0 → (∀ row ∈ registerRows, row.offset ≠ offset) →
      hostRead s 4 (s.baseAddr + offset) = .next { s with rdata := 0#32 } ∧
        ∀ w : Word, hostWrite s 4 (s.baseAddr + offset) w = .next s

/-- R39: INT_EN's two bits are read and written, busy or not, its other bits read 0 and are ignored, it resets to 0, and it is the
only mapped register that may be written while BUSY = 1 without setting OVR. -/
def Obligations.IntEnRegister : Prop :=
  (∀ (s : State) (w : Word) (rest : List Input), s.inputs = .write 4 (s.baseAddr + 0x00C) w :: rest →
      step s = .next { s with inputs := rest, intEn := { doneIe := w.getLsbD 0, errIe := w.getLsbD 1 } }) ∧
    (∀ s : State, (s.readReg .intEn).getLsbD 0 = s.intEn.doneIe ∧ (s.readReg .intEn).getLsbD 1 = s.intEn.errIe ∧
      s.readReg .intEn &&& 0xFFFFFFFC#32 = 0#32) ∧
    State.reset.intEn = { doneIe := false, errIe := false } ∧
    ∀ (s : State) (offset : Nat) (r : HostReg) (w : Word) (rest : List Input), s.status.busy = true → regAt offset = some r →
      r ≠ .intEn → s.inputs = .write 4 (s.baseAddr + offset) w :: rest → ∃ t, step s = .next t ∧ t.status.ovr = true

/-- A host write to PROF0 or PROF1 while BUSY = 0 stores min(w[4:0], 30) (R40), one to ARGi stores w (R41), and neither changes
anything else. -/
def Obligations.OperandRegisters : Prop :=
  ∀ (s : State) (w : Word) (rest : List Input), s.status.busy = false →
    (s.inputs = .write 4 (s.baseAddr + 0x010) w :: rest →
      ∃ t, step s = .next t ∧ t = { s with inputs := rest, prof0 := t.prof0 } ∧ t.prof0.val = min (u32 w % 32) 30 ∧
        u32 (t.readReg .prof0) = min (u32 w % 32) 30) ∧
    (s.inputs = .write 4 (s.baseAddr + 0x014) w :: rest →
      ∃ t, step s = .next t ∧ t = { s with inputs := rest, prof1 := t.prof1 } ∧ t.prof1.val = min (u32 w % 32) 30 ∧
        u32 (t.readReg .prof1) = min (u32 w % 32) 30) ∧
    ∀ i : Fin 8, s.inputs = .write 4 (s.baseAddr + 0x020 + 4 * i.val) w :: rest →
      ∃ t, step s = .next t ∧ t = { s with inputs := rest, argLo := t.argLo, argHi := t.argHi } ∧
        ∀ j : Fin 8, t.readReg (.arg j) = if j = i then w else s.readReg (.arg j)

/-- R53: a host write to a register marked RO is ignored, and so are the RO bits of a write to STATUS, whose other bits are 1 to 3. -/
def Obligations.ReadOnlyRegistersIgnoreWrites : Prop :=
  (∀ (s : State) (row : RegisterRow) (w : Word) (rest : List Input), s.status.busy = false → row ∈ registerRows →
      row.access = .ro → s.inputs = .write 4 (s.baseAddr + row.offset) w :: rest → step s = .next { s with inputs := rest }) ∧
    ∀ (s : State) (w : Word), s.writeReg .status w = s.writeReg .status (w &&& 0x0000000E#32)

/-- A host write to STATUS while BUSY = 0 clears DONE (bit 1), ERR with ERRCODE (bit 2) and OVR (bit 3) where its bit is 1, and
changes nothing else (the W1C sentences of R35, R36 and R37). -/
def Obligations.StatusWriteOneToClear : Prop :=
  ∀ (s : State) (w : Word) (rest : List Input), s.status.busy = false → s.inputs = .write 4 (s.baseAddr + 0x008) w :: rest →
    ∃ t, step s = .next t ∧ t = { s with inputs := rest, status := t.status } ∧ t.status.busy = false ∧
      t.status.done = (if w.getLsbD 1 then false else s.status.done) ∧
      (if w.getLsbD 2 then t.status.err = false ∧ t.status.errcode = .none
        else t.status.err = s.status.err ∧ t.status.errcode = s.status.errcode) ∧
      t.status.ovr = (if w.getLsbD 3 then false else s.status.ovr)

/-- R54: while BUSY = 1 a host write to any mapped register other than INT_EN is dropped; its one effect is OVR = 1. -/
def Obligations.WritesWhileBusyAreDropped : Prop :=
  ∀ (s : State) (row : RegisterRow) (w : Word) (rest : List Input), s.status.busy = true → row ∈ registerRows → row.reg ≠ .intEn →
    s.inputs = .write 4 (s.baseAddr + row.offset) w :: rest →
      step s = .next { s with inputs := rest, status := { s.status with ovr := true } }

/-- A host read returns the current value, but while BUSY = 1 a free value for a register the engine writes, and changes nothing
else (R55, R93). The free value is log entry 3; `rdata` and `draws`, which hold what was returned and count the free values, are
the model's own fields (log entries 1 and 3). -/
def Obligations.HostReadsHaveNoSideEffect : Prop :=
  ∀ (s : State) (row : RegisterRow) (rest : List Input), row ∈ registerRows → s.inputs = .read 4 (s.baseAddr + row.offset) :: rest →
    let current := row.reg ∈ [.id, .cmd, .status, .intEn, .prof0, .prof1] ∨ ∃ i, row.reg = .arg i
    ((s.status.busy = false ∨ current) → step s = .next { s with inputs := rest, rdata := s.readReg row.reg }) ∧
      (s.status.busy = true → ¬current →
        step s = .next { s with inputs := rest, rdata := Config.busyRead s.draws, draws := s.draws + 1 })

/-! ## The host's bus -/

/-- R88 and R90: a register-window access that is not 32 bits wide at a multiple of 4, and any BUF access while BUSY = 1, is
refused. -/
def Obligations.RefusedHostAccesses : Prop :=
  ∀ (s : State) (width offset : Nat) (v : Word) (rest : List Input),
    s.inputs = .read width (s.baseAddr + offset) :: rest ∨ s.inputs = .write width (s.baseAddr + offset) v :: rest →
      (offset < 0x1000 → ¬(width = 4 ∧ offset % 4 = 0) → step s = .refused (.registerAccess width (s.baseAddr + offset))) ∧
      (0x1000 ≤ offset → s.status.busy = true → 0x100000 < offset + width → offset < 0x100000 + s.buf.size →
        step s = .refused (.bufAccessWhileBusy (s.baseAddr + offset)))

/-- R89: while BUSY = 0 a BUF access of 1, 2 or 4 bytes, naturally aligned and inside BUF, reads the bytes little-endian or writes
exactly them; any other access that touches BUF is refused. -/
def Obligations.BufHostAccess : Prop :=
  ∀ (s : State) (width offset : Nat) (v : Word) (rest : List Input), s.status.busy = false →
    (width ∈ [1, 2, 4] → offset % width = 0 → 0x100000 ≤ offset → offset + width ≤ 0x100000 + s.buf.size →
      (s.inputs = .read width (s.baseAddr + offset) :: rest →
        step s = .next { s with inputs := rest, rdata := BitVec.ofNat 32 (s.buf.number (offset - 0x100000) width) }) ∧
      (s.inputs = .write width (s.baseAddr + offset) v :: rest →
        ∃ t, step s = .next t ∧ t = { s with inputs := rest, buf := t.buf } ∧
          (∀ k, k < width → t.buf.byte (offset - 0x100000 + k) = BitVec.ofNat 8 (u32 v / 2 ^ (8 * k))) ∧
          ∀ b, outside b (offset - 0x100000) width → t.buf.byte b = s.buf.byte b)) ∧
    (0x1000 ≤ offset → 0x100000 < offset + width → offset < 0x100000 + s.buf.size →
      ¬(width ∈ [1, 2, 4] ∧ offset % width = 0 ∧ offset + width ≤ 0x100000 + s.buf.size) →
      s.inputs = .read width (s.baseAddr + offset) :: rest ∨ s.inputs = .write width (s.baseAddr + offset) v :: rest →
        step s = .refused (.bufAccess width (s.baseAddr + offset)))

/-- R84 and R85: MemRead combines the bytes little-endian, MemWrite sets exactly the n bytes, and the canonical form of BUF is
kept. -/
def Obligations.MemoryPrimitives : Prop :=
  ∀ (m : Buf) (a n v : Nat), n ∈ [1, 2, 4] → a + n ≤ m.size →
    memRead m a n = some (∑ k ∈ Finset.range n, (m.byte (a + k)).toNat * 2 ^ (8 * k)) ∧
      ∃ m', memWrite m a n v = some m' ∧ (∀ k, k < n → m'.byte (a + k) = BitVec.ofNat 8 (v % 2 ^ (8 * n) / 2 ^ (8 * k))) ∧
        (∀ b, outside b a n → m'.byte b = m.byte b) ∧ m'.size = m.size ∧ (m.wf = true → m'.wf = true)

/-- After the host writes the 32-bit value v at a multiple of 4, a byte read at a + k returns `(v >> 8k) mod 256` and a 16-bit read at
a + 2 returns `(v >> 16) mod 65536` (R107). -/
def Obligations.MixedWidthAccesses : Prop :=
  ∀ (m m' : Buf) (a : Nat) (v : Word), a + 4 ≤ m.size → memWrite m a 4 v.toNat = some m' →
    (∀ k, k < 4 → memRead m' (a + k) 1 = some (v.toNat / 2 ^ (8 * k) % 256)) ∧
      memRead m' (a + 2) 2 = some (v.toNat / 2 ^ 16 % 65536) ∧ memRead m' a 4 = some v.toNat

/-- A host access that touches neither the register window nor BUF reads 0 and ignores writes (the reserved rows of R82), busy or
not. That this holds of every width is log entry 12. -/
def Obligations.ReservedRanges : Prop :=
  ∀ (s : State) (width offset : Nat) (v : Word) (rest : List Input), 0x1000 ≤ offset → offset < 0x200000 →
    (offset + width ≤ 0x100000 ∨ 0x100000 + s.buf.size ≤ offset) →
      (s.inputs = .read width (s.baseAddr + offset) :: rest → step s = .next { s with inputs := rest, rdata := 0#32 }) ∧
      (s.inputs = .write width (s.baseAddr + offset) v :: rest → step s = .next { s with inputs := rest })

/-! ## Reset and the invariants -/

/-- R450: the reset input puts every register at its reset value, whatever the core was doing before, a running command included.
BUF's contents are unspecified, so nothing is said of them. -/
def Obligations.ResetInputState : Prop :=
  ∀ (s : State) (rest : List Input), s.inputs = .reset :: rest →
    ∃ t, step s = .next t ∧ t.inputs = rest ∧ t.status = { busy := false, done := false, err := false, ovr := false, errcode := .none } ∧
      t.statusWord = 0#32 ∧ t.readReg .id = 0x45424E31#32 ∧ t.intEn = { doneIe := false, errIe := false } ∧ t.prof0.val = 14 ∧
      t.prof1.val = 10 ∧ (∀ i, t.argWord i = 0#32) ∧ (∀ c, t.result.get c = 0#32) ∧ t.errSample = 0#32 ∧ t.errChan = 0#32 ∧
      t.enc = { low := 0#33, range := 0xFFFFFFFF#32, cache := 0#8, csize := 1#32, outBase := 0#32, outPtr := 0#32, outEnd := 0#32,
                state := .idle } ∧
      t.dec = { code := 0#32, range := 0xFFFFFFFF#32, inBase := 0#32, inPtr := 0#32, inEnd := 0#32, state := .idle } ∧
      t.pred.p1 = ⟨0x40000000#32, 0#32, 0#32, 0#32⟩ ∧ t.pred.p2 = ⟨0x40000000#32, 0#32, 0#32, 0#32⟩ ∧
      t.pred.var = ⟨0x00000400#32, 0x00000400#32, 0x00000400#32, 0x00000400#32⟩ ∧ t.irq = false ∧ t.buf.size = s.buf.size

/-- The state after reset meets the invariant. -/
def Obligations.ResetMeetsInvariant : Prop := State.reset.Inv

/-- Every step keeps the invariant, from every state that meets it: the coders' pointers inside BUF (R47, R49), their intervals (R45,
R48, R272, R273), ERRCODE with ERR and no pending bit while busy (R36, R411), MODEL_INVARIANT never raised (R405), the variance
estimates' bound (R325), and BUF's canonical form. -/
def Obligations.StepKeepsInvariant : Prop := ∀ s t : State, s.Inv → step s = .next t → t.Inv

/-- From a state that meets the invariant no step faults: the engine accesses BUF only inside it (R80, R81). -/
def Obligations.StepNeverFaults : Prop := ∀ s : State, s.Inv → Result.Safe (step s)

/-- R64: the committed predictor state changes only in a successful COMPRESS, a successful DECOMPRESS, PRST, SRST and reset, and no
error completion changes it. -/
def Obligations.PredictorChangesInFourCases : Prop :=
  (∀ s t : State, step s = .next t → t.pred ≠ s.pred →
      (∃ rest, s.inputs = .reset :: rest) ∨
        (s.status.busy = true ∧ (s.inputs = [] ∨ ∃ rest, s.inputs = .engine :: rest) ∧
          (decode s.latch = .ok .prst ∨ decode s.latch = .ok .srst ∨
            (((∃ p, decode s.latch = .ok (.compress p)) ∨ decode s.latch = .ok .decompress) ∧
              (s.accepted → t.status.err = false))))) ∧
    ∀ (i : Instr) (s t : State), s.accepted → exec i s = .next t → t.failed → t.pred = s.pred

/-! ## What every command does -/

/-- A command other than SRST changes no operand, profile or interrupt-enable register, not OVR, not the latch, not BUF_SIZE or
BASE_ADDR, and nothing outside the core (R37, R39, R40, R41, R59). -/
def Obligations.CommandsKeepTheHostsRegisters : Prop :=
  ∀ (i : Instr) (s t : State), exec i s = .next t → i ≠ .srst →
    t = { s with status := t.status, result := t.result, errSample := t.errSample, errChan := t.errChan, enc := t.enc, dec := t.dec,
                 pred := t.pred, buf := t.buf } ∧
      t.status.ovr = s.status.ovr ∧ t.buf.size = s.buf.size ∧ t.buf.resets = s.buf.resets

/-- Every command ends with BUSY 0 and DONE 1 (R34, R35); without an error ERR and ERRCODE stay 0 and ERR_SAMPLE and ERR_CHAN are
unchanged (R36, R43, R403; SRST clears them, R172); with an error ERR is 1, ERRCODE a code, and no RESULT register is written
(R404). -/
def Obligations.CompletionReport : Prop :=
  ∀ (i : Instr) (s t : State), s.accepted → exec i s = .next t →
    t.status.busy = false ∧ t.status.done = true ∧
      ((t.status.err = false ∧ t.status.errcode = .none ∧ (i ≠ .srst → t.errSample = s.errSample ∧ t.errChan = s.errChan)) ∨
        (t.status.err = true ∧ t.status.errcode ≠ .none ∧ t.result = s.result))

/-- A command other than SRST leaves every RESULT register that R134 does not list for it (R42, R403). -/
def Obligations.UnlistedResultsAreKept : Prop :=
  ∀ (i : Instr) (s t : State), exec i s = .next t → i ≠ .srst → ∀ c : Fin 4, resultCount i ≤ c.val → t.result.get c = s.result.get c

/-- R400: the codes' numbers, which command raises which code, and the ERR_SAMPLE and ERR_CHAN of each; an illegal word raises 5. -/
def Obligations.ErrorCodesAndSites : Prop :=
  [ErrorCode.none, .quantOverflow, .outputExhausted, .scratchTooSmall, .modelInvariant, .illegalCommand, .badArgument,
      .inputExhausted, .badHeader, .coderNotReady].map errorNumber = (List.range 10).map (BitVec.ofNat 8) ∧
    (∀ (i : Instr) (s t : State), s.accepted → exec i s = .next t → t.failed →
      errorAllowed i s t.status.errcode t.errSample t.errChan) ∧
    ∀ (s : State) (e : Illegal), decode s.latch = .error e → runLatched s = .next (s.failedWith .illegalCommand na na)

/-- R270: the coder states' transitions, command by command; a command that needs a coder that is not ACTIVE raises CODER_NOT_READY
with no other change, and no other command raises it; reset makes both IDLE; and no step changes either but a reset's and the
engine's run of a legal command. -/
def Obligations.CoderStateTransitions : Prop :=
  (∀ (i : Instr) (s t : State), s.accepted → exec i s = .next t →
      t.enc.state = encStateAfter i s.enc.state t.status.errcode ∧ t.dec.state = decStateAfter i s.dec.state t.status.errcode) ∧
    (∀ (i : Instr) (s : State), (needsEncoder i = true ∧ s.enc.state ≠ .active) ∨ (needsDecoder i = true ∧ s.dec.state ≠ .active) →
      exec i s = .next (s.failedWith .coderNotReady na na)) ∧
    (∀ (i : Instr) (s t : State), s.accepted → needsEncoder i = false → needsDecoder i = false → exec i s = .next t →
      t.status.errcode ≠ .coderNotReady) ∧
    (∀ s : State, s.resetInput.enc.state = .idle ∧ s.resetInput.dec.state = .idle) ∧
    ∀ s t : State, step s = .next t → (t.enc.state ≠ s.enc.state ∨ t.dec.state ≠ s.dec.state) →
      (∃ rest, s.inputs = .reset :: rest) ∨
        (s.status.busy = true ∧ (s.inputs = [] ∨ ∃ rest, s.inputs = .engine :: rest) ∧ ∃ i, decode s.latch = .ok i)

/-- The frame of every command over the coder registers, BUF and the predictor (R38, R64, R81, R200, R245, R294, R303): each is
unchanged, every byte of BUF included, unless the command is one that writes it. -/
def Obligations.CommandFrames : Prop :=
  ∀ (i : Instr) (s t : State), exec i s = .next t →
    (writesEncoder i = false → t.enc = s.enc) ∧ (writesDecoder i = false → t.dec = s.dec) ∧
      (writesPredictor i = false → t.pred = s.pred) ∧ (writesBuffer i = false → t.buf = s.buf)

/-- ENC_SYM, ENC_SYMB and ENC_FLUSH store only the bytes from OUT_PTR before to OUT_PTR after, below OUT_END, whatever the outcome, and
move neither end of the region (R274, R303). -/
def Obligations.EncoderStores : Prop :=
  ∀ (i : Instr) (s t : State), needsEncoder i = true → exec i s = .next t →
    u32 s.enc.outPtr ≤ u32 t.enc.outPtr ∧ (u32 s.enc.outPtr ≤ u32 s.enc.outEnd → u32 t.enc.outPtr ≤ u32 s.enc.outEnd) ∧
      t.enc.outBase = s.enc.outBase ∧ t.enc.outEnd = s.enc.outEnd ∧
      ∀ b, outside b (u32 s.enc.outPtr) (u32 t.enc.outPtr - u32 s.enc.outPtr) → t.buf.byte b = s.buf.byte b

/-- The interrupt line after a command: with DONE_IE it is high at every completion, with only ERR_IE at errors only (R410); after
SRST it is low (R172); while a command runs it is low (R411). -/
def Obligations.InterruptLine : Prop :=
  (∀ (i : Instr) (s t : State), s.accepted → exec i s = .next t → i ≠ .srst →
      t.irq = (s.intEn.doneIe || (s.intEn.errIe && t.status.err))) ∧
    (∀ s t : State, exec .srst s = .next t → t.irq = false) ∧ ∀ s : State, s.Inv → s.status.busy = true → s.irq = false

/-! ## Control commands -/

/-- NOP only completes (R171). SRST gives every register its reset value except DONE, and keeps BUF (R172, R173). PRST sets the
stream-start predictor state and nothing else (R175, R176). Each is the whole next state: that SRST keeps the command latch too is
the model's choice, log entry 6, and that it keeps `rdata`, `draws` and `inputs`, the model's own fields, is log entries 1, 3 and
5. -/
def Obligations.ControlCommands : Prop :=
  (∀ s : State, exec .nop s = .next (s.doneWith s.result)) ∧
    (∀ s : State, exec .srst s = .next
      { s with
        status := { s.status with busy := false, done := true, ovr := false }
        intEn := { doneIe := false, errIe := false }
        prof0 := 14, prof1 := 10
        argLo := ⟨0#32, 0#32, 0#32, 0#32⟩, argHi := ⟨0#32, 0#32, 0#32, 0#32⟩, result := ⟨0#32, 0#32, 0#32, 0#32⟩
        errSample := 0#32, errChan := 0#32
        enc := { low := 0#33, range := 0xFFFFFFFF#32, cache := 0#8, csize := 1#32, outBase := 0#32, outPtr := 0#32,
                 outEnd := 0#32, state := .idle }
        dec := { code := 0#32, range := 0xFFFFFFFF#32, inBase := 0#32, inPtr := 0#32, inEnd := 0#32, state := .idle }
        pred := { p1 := ⟨0x40000000#32, 0#32, 0#32, 0#32⟩, p2 := ⟨0x40000000#32, 0#32, 0#32, 0#32⟩,
                  var := ⟨0x400#32, 0x400#32, 0x400#32, 0x400#32⟩ } }) ∧
    ∀ s : State, exec .prst s = .next
      { s with
        status := { s.status with busy := false, done := true }
        pred := { p1 := ⟨0x40000000#32, 0#32, 0#32, 0#32⟩, p2 := ⟨0x40000000#32, 0#32, 0#32, 0#32⟩,
                  var := ⟨0x400#32, 0x400#32, 0x400#32, 0x400#32⟩ } }

/-! ## Variance model -/

/-- The ROM is the construction of R96 from the ratio constants of R97, whose weights have the sums of R97. R108 and R109: every table
starts at 0, ends at 32768 and rises by at least 1, so its frequencies sum to 32768; it is
symmetric about its peak, which is the frequency of symbol 0; table 0 gives every other symbol frequency 1. -/
def Obligations.RomInvariants : Prop :=
  romRatios = [1, 22, 229, 1200, 3874, 8869, 15933, 24109, 32314, 39750, 46019, 51039, 54917, 57835, 59992, 61565] ∧
  romRatios.map (fun r => (romBothSides r).sum) = [65538, 65580, 65994, 67978, 73768, 86044, 107628, 141800, 193000, 267526, 374482,
    526800, 743028, 1049272, 1482610, 2095190] ∧
  ∀ b : Bucket,
    (∀ j, j ≤ 256 → (romConstruction b)[j]? = some (rom b j)) ∧
    rom b 0 = 0 ∧ rom b 256 = 32768 ∧ (∀ j, j ≤ 255 → rom b j + 1 ≤ rom b (j + 1)) ∧
      (∑ j ∈ Finset.range 256, (rom b (j + 1) - rom b j)) = 32768 ∧
      (∀ x, 1 ≤ x → x ≤ 127 → rom b (128 + x + 1) - rom b (128 + x) = rom b (128 - x + 1) - rom b (128 - x)) ∧
      (∀ j, j ≤ 255 → rom b (j + 1) - rom b j ≤ rom b 129 - rom b 128) ∧
      (b = 0 → rom b 129 - rom b 128 = 32513 ∧ ∀ j, j ≤ 255 → j ≠ 128 → rom b (j + 1) - rom b j = 1)

/-- R201 and R202, as CDF and FREQ return them (R210, R211): 0 below, the ROM entry inside, 32768 above; the difference of two
neighbours, at least 1 for a Symbol and 0 for anything else. -/
def Obligations.CdfAndFreqResults : Prop :=
  ∀ (s : State) (b : Bucket),
    let x := s32 s.argLo.c0
    (x ≤ -128 → exec (.cdf b) s = .next (s.doneWith { s.result with c0 := 0#32 })) ∧
    (-128 < x → x ≤ 128 → exec (.cdf b) s = .next (s.doneWith { s.result with c0 := BitVec.ofNat 32 (rom b (x + 128).toNat) })) ∧
    (128 < x → exec (.cdf b) s = .next (s.doneWith { s.result with c0 := 32768#32 })) ∧
    (-128 ≤ x → x ≤ 127 →
      rom b (x + 128).toNat < rom b (x + 129).toNat ∧
        exec (.freq b) s =
          .next (s.doneWith { s.result with c0 := BitVec.ofNat 32 (rom b (x + 129).toNat - rom b (x + 128).toNat) })) ∧
    (x < -128 ∨ 127 < x → exec (.freq b) s = .next (s.doneWith { s.result with c0 := 0#32 })) ∧
    ∀ z : Int, (freqFn z b : Int) = (cdfFn (z + 1) b : Int) - (cdfFn z b : Int) ∧ (1 ≤ freqFn z b ↔ -128 ≤ z ∧ z ≤ 127)

/-- R203 and R216: for y < 32768 ICDF returns the one x, a Symbol, with `cdf_fn(x, b) <= y < cdf_fn(x + 1, b)`, with its cdf and freq;
it leaves RESULT3; for any other y it raises BAD_ARGUMENT (R212). -/
def Obligations.IcdfResult : Prop :=
  ∀ (s : State) (b : Bucket),
    let y := u32 s.argLo.c0
    (y < 32768 → ∃ x : Int, -128 ≤ x ∧ x ≤ 127 ∧ cdfFn x b ≤ y ∧ y < cdfFn (x + 1) b ∧
      (∀ z : Int, cdfFn z b ≤ y → y < cdfFn (z + 1) b → z = x) ∧ icdfFn y b = x ∧
      exec (.icdf b) s = .next (s.doneWith
        { s.result with c0 := toWord x, c1 := BitVec.ofNat 32 (cdfFn x b), c2 := BitVec.ofNat 32 (freqFn x b) })) ∧
    (32768 ≤ y → exec (.icdf b) s = .next (s.failedWith .badArgument na na))

/-- V2B returns 0 below 2^11 and else `min(15, msb(v) − 10)` (R204, R213); B2V returns `2^(clamp(i, 0, 15) + 10)` (R206, R214);
SCALEBITS returns 15 (R215). -/
def Obligations.BucketResults : Prop :=
  ∀ s : State,
    (u32 s.argLo.c0 < 2 ^ 11 → exec .v2b s = .next (s.doneWith { s.result with c0 := 0#32 })) ∧
    (∀ k, 11 ≤ k → 2 ^ k ≤ u32 s.argLo.c0 → u32 s.argLo.c0 < 2 ^ (k + 1) →
      exec .v2b s = .next (s.doneWith { s.result with c0 := BitVec.ofNat 32 (min 15 (k - 10)) })) ∧
    (s32 s.argLo.c0 < 0 → exec .b2v s = .next (s.doneWith { s.result with c0 := 0x00000400#32 })) ∧
    (∀ i : Nat, s32 s.argLo.c0 = i → exec .b2v s = .next (s.doneWith { s.result with c0 := BitVec.ofNat 32 (2 ^ (min i 15 + 10)) })) ∧
    exec .scalebits s = .next (s.doneWith { s.result with c0 := 15#32 })

/-- R217: v2b_fn is nondecreasing, 66 and 65 are in bucket 0 and 0x04000000 in bucket 15, and b2v_fn takes each bucket back to itself. -/
def Obligations.BucketProperties : Prop :=
  (∀ v w : Nat, v ≤ w → (v2bFn v).toNat ≤ (v2bFn w).toNat) ∧ v2bFn 66 = 0 ∧ v2bFn 65 = 0 ∧ v2bFn 0x04000000 = 15 ∧
    ∀ i : Nat, i ≤ 15 → (v2bFn (b2vFn i)).toNat = i ∧ b2vFn (v2bFn (b2vFn i)).toNat = b2vFn i

/-! ## Quaternions -/

/-- R242: QMUL returns the Hamilton product, exact in ℤ inside a 66-bit accumulator, rounded to nearest with ties toward +∞ and
saturated to s32. -/
def Obligations.QmulResult : Prop :=
  ∀ (s : State) (cnj : Bool),
    let a := s.argLo.map s32
    let sign : Int := if cnj then -1 else 1
    let b : Quad Int := ⟨s32 s.argHi.c0, sign * s32 s.argHi.c1, sign * s32 s.argHi.c2, sign * s32 s.argHi.c3⟩
    let acc : Quad Int :=
      ⟨a.c0 * b.c0 - a.c1 * b.c1 - a.c2 * b.c2 - a.c3 * b.c3, a.c0 * b.c1 + a.c1 * b.c0 + a.c2 * b.c3 - a.c3 * b.c2,
       a.c0 * b.c2 - a.c1 * b.c3 + a.c2 * b.c0 + a.c3 * b.c1, a.c0 * b.c3 + a.c1 * b.c2 - a.c2 * b.c1 + a.c3 * b.c0⟩
    ∃ r : Quad Word, exec (.qmul cnj) s = .next (s.doneWith r) ∧ ∀ c : Fin 4,
      -2 ^ 65 ≤ acc.get c ∧ acc.get c < 2 ^ 65 ∧
        s32 (r.get c) = min (max ((acc.get c + 2 ^ 29) / 2 ^ 30) (-2 ^ 31)) (2 ^ 31 - 1)

/-- R244: QEXP returns the second-order map of v, with floor halves h in [−2^30, 2^30 − 1], a sum of squares of at most 3·2^60, and a w
that is at least −2^29, so that sat32 never changes it. -/
def Obligations.QexpResult : Prop :=
  ∀ s : State,
    let h : Quad Int := ⟨0, s32 s.argLo.c0 / 2, s32 s.argLo.c1 / 2, s32 s.argLo.c2 / 2⟩
    let w : Int := 2 ^ 30 - (h.c1 ^ 2 + h.c2 ^ 2 + h.c3 ^ 2 + 2 ^ 30) / 2 ^ 31
    (∀ c : Fin 4, -2 ^ 30 ≤ h.get c ∧ h.get c ≤ 2 ^ 30 - 1) ∧ h.c1 ^ 2 + h.c2 ^ 2 + h.c3 ^ 2 ≤ 3 * 2 ^ 60 ∧ -2 ^ 29 ≤ w ∧
      ∃ r : Quad Word, exec .qexp s = .next (s.doneWith r) ∧ s32 r.c0 = w ∧ s32 r.c1 = h.c1 ∧ s32 r.c2 = h.c2 ∧ s32 r.c3 = h.c3

/-- PREDICT returns what QMUL with CNJ of P1 and P2, and then QMUL of that result and P1, return (R245, R320, R330); CLASSIFY returns
for each channel what V2B returns for its estimate (R326, R333). -/
def Obligations.PredictAndClassifyResults : Prop :=
  (∀ s : State, ∃ r : Quad Word, exec .predict s = .next (s.doneWith r) ∧ ∀ u v t1 t2 : State,
      u.argLo = s.pred.p1 → u.argHi = s.pred.p2 → exec (.qmul true) u = .next t1 → v.argLo = t1.result →
      v.argHi = s.pred.p1 → exec (.qmul false) v = .next t2 → t2.result = r) ∧
    ∀ s : State, ∃ r : Quad Word, exec .classify s = .next (s.doneWith r) ∧ ∀ (c : Fin 4) (u t : State),
      u.argLo.c0 = s.pred.var.get c → exec .v2b u = .next t → t.result.c0 = r.get c

/-! ## Quantizer -/

/-- QUANT with profile F returns the four rounded differences if every one is a Symbol, and else raises QUANT_OVERFLOW for the lowest
channel whose difference is not (R322, R331). -/
def Obligations.QuantResult : Prop :=
  ∀ (s : State) (p : Profile),
    let f : Nat := match p with | .prof0 => s.prof0.val | .prof1 => s.prof1.val
    let e : Fin 4 → Int := fun c => s32 (s.argLo.get c) - s32 (s.argHi.get c)
    let q : Fin 4 → Int := fun c => if f = 30 then e c else (e c + 2 ^ (29 - f)) / 2 ^ (30 - f)
    ((∀ c, -128 ≤ q c ∧ q c ≤ 127) →
      exec (.quant p) s = .next (s.doneWith ⟨toWord (q 0), toWord (q 1), toWord (q 2), toWord (q 3)⟩)) ∧
    ∀ c, (∀ d, d < c → -128 ≤ q d ∧ q d ≤ 127) → ¬(-128 ≤ q c ∧ q c ≤ 127) →
      exec (.quant p) s = .next (s.failedWith .quantOverflow na (BitVec.ofNat 32 c.val))

/-- DEQUANT with profile F returns `sat32(pr + q * 2^(30 − F))` for each channel if every q is a Symbol, and else raises BAD_ARGUMENT
for the lowest channel whose q is not (R323, R332). -/
def Obligations.DequantResult : Prop :=
  ∀ (s : State) (p : Profile),
    let f : Nat := match p with | .prof0 => s.prof0.val | .prof1 => s.prof1.val
    let q : Fin 4 → Int := fun c => s32 (s.argLo.get c)
    ((∀ c, -128 ≤ q c ∧ q c ≤ 127) →
      ∃ r : Quad Word, exec (.dequant p) s = .next (s.doneWith r) ∧ ∀ c,
        s32 (r.get c) = min (max (s32 (s.argHi.get c) + q c * 2 ^ (30 - f)) (-2 ^ 31)) (2 ^ 31 - 1)) ∧
    ∀ c, (∀ d, d < c → -128 ≤ q d ∧ q d ≤ 127) → ¬(-128 ≤ q c ∧ q c ≤ 127) →
      exec (.dequant p) s = .next (s.failedWith .badArgument na (BitVec.ofNat 32 c.val))

/-- R324: where the symbol does not overflow, the reconstruction is within half a step of the actual component, `2^(29 − F)`, and
exact for F = 30. -/
def Obligations.ReconstructionWithinHalfAStep : Prop :=
  ∀ (a pr : Word) (f : Nat), f ≤ 30 → quantOverflows (s32 a) (s32 pr) f = false →
    (f < 30 → |dequantFn (s32 pr) (quantFn (s32 a) (s32 pr) f) f - s32 a| ≤ 2 ^ (29 - f)) ∧
      (f = 30 → dequantFn (s32 pr) (quantFn (s32 a) (s32 pr) f) f = s32 a)

/-- VUPD with a Symbol q returns `v - (v >> 4) + ((q * q) << 12)`, which always fits a u32 and keeps the bound 2^30 + 15, and the reset
value of VAR is 0x400 (R325; that every step keeps the bound is part of StepKeepsInvariant); with any other q it raises BAD_ARGUMENT
(R334). -/
def Obligations.VupdResult : Prop :=
  ∀ s : State,
    let v := u32 s.argLo.c0
    let q := s32 s.argLo.c1
    (-128 ≤ q → q ≤ 127 →
      (v : Int) - v / 16 ≤ 2 ^ 32 - 2 ^ 28 ∧ q * q * 4096 ≤ 2 ^ 26 ∧ (v : Int) - v / 16 + q * q * 4096 < 2 ^ 32 ∧ (v ≤ 2 ^ 30 + 15 → (v : Int) - v / 16 + q * q * 4096 ≤ 2 ^ 30 + 15) ∧
        ∃ w : Word, exec .vupd s = .next (s.doneWith { s.result with c0 := w }) ∧ (u32 w : Int) = v - v / 16 + q * q * 4096) ∧
    (q < -128 ∨ 127 < q → exec .vupd s = .next (s.failedWith .badArgument na na)) ∧
    ∀ c : Fin 4, State.reset.pred.var.get c = 0x400#32

/-! ## Range coder -/

/-- ENC_INIT opens an encoding into [a, a + c) if it lies in BUF, writing no BUF byte, and else raises BAD_ARGUMENT (R271, R277). -/
def Obligations.EncInitResult : Prop :=
  ∀ s : State, s.buf.size ≤ 2 ^ 20 →
    (u32 s.argLo.c0 + u32 s.argLo.c1 ≤ s.buf.size →
      exec .encInit s = .next
        { s with
          status := { s.status with busy := false, done := true }
          enc := { low := 0#33, range := 0xFFFFFFFF#32, cache := 0#8, csize := 1#32, outBase := s.argLo.c0, outPtr := s.argLo.c0,
                   outEnd := s.argLo.c0 + s.argLo.c1, state := .active } }) ∧
    (s.buf.size < u32 s.argLo.c0 + u32 s.argLo.c1 → exec .encInit s = .next (s.failedWith .badArgument na na))

/-- ENC_SYM and ENC_SYMB on an ACTIVE encoder with one byte more of room than is held back complete (R276, R278, R279): with r =
range / 2^15, the code that the encoder has written, holds back and keeps in `low` grows by r·cum and then by k ≤ 2 byte positions,
as few as bring the range r·fr back to 2^24 (R273, R285), and only the bytes up to the new OUT_PTR change. With an interval or a
symbol that is not legal they raise BAD_ARGUMENT. -/
def Obligations.EncodeSymbolResult : Prop :=
  ∀ (s : State) (i : Instr) (cum fr : Nat), s.buf.Inv → s.enc.Inv s.buf.size → s.enc.state = .active →
    ((i = .encSym ∧ cum = u32 s.argLo.c0 ∧ fr = u32 s.argLo.c1) ∨
      ∃ b, i = .encSymb b ∧ cum = cdfFn (s32 s.argLo.c0) b ∧ fr = freqFn (s32 s.argLo.c0) b) →
    (1 ≤ fr → cum + fr ≤ 32768 → u32 s.enc.outPtr + u32 s.enc.csize + 1 ≤ u32 s.enc.outEnd →
      ∃ (t : State) (k : Nat), exec i s = .next t ∧
        t = { s with status := { s.status with busy := false, done := true }, enc := t.enc, buf := t.buf } ∧
        t.enc.state = .active ∧ t.enc.outBase = s.enc.outBase ∧ t.enc.outEnd = s.enc.outEnd ∧ k ≤ 2 ∧
        u32 t.enc.range = u32 s.enc.range / 2 ^ 15 * fr * 256 ^ k ∧ 2 ^ 24 ≤ u32 t.enc.range ∧
        (k = 0 ∨ u32 s.enc.range / 2 ^ 15 * fr * 256 ^ (k - 1) < 2 ^ 24) ∧
        (EncPort.mk t.enc t.buf).codeValue
          = ((EncPort.mk s.enc s.buf).codeValue + u32 s.enc.range / 2 ^ 15 * cum) * 256 ^ k ∧
        u32 t.enc.outPtr + u32 t.enc.csize = u32 s.enc.outPtr + u32 s.enc.csize + k ∧
        ∀ b, outside b (u32 s.enc.outPtr) (u32 t.enc.outPtr - u32 s.enc.outPtr) → t.buf.byte b = s.buf.byte b) ∧
    (fr < 1 ∨ 32768 < cum + fr → exec i s = .next (s.failedWith .badArgument na na))

/-- ENC_FLUSH on an ACTIVE encoder with four bytes more of room than are held back completes (R280, R281, R285): the bytes from OUT_BASE
to OUT_PTR are then the code, most significant byte first, RESULT0 is their number, and the state is FLUSHED. -/
def Obligations.EncFlushResult : Prop :=
  ∀ s : State, s.buf.Inv → s.enc.Inv s.buf.size → s.enc.state = .active →
    u32 s.enc.outPtr + u32 s.enc.csize + 4 ≤ u32 s.enc.outEnd →
      ∃ t : State, exec .encFlush s = .next t ∧
        t = { s with status := { s.status with busy := false, done := true }, enc := t.enc, buf := t.buf, result := t.result } ∧
        t.enc = { s.enc with low := 0#33, cache := 0#8, csize := 1#32, outPtr := t.enc.outPtr, state := .flushed } ∧
        u32 t.enc.outPtr = u32 s.enc.outPtr + u32 s.enc.csize + 4 ∧
        t.result = { s.result with c0 := t.enc.outPtr - s.enc.outBase } ∧
        t.buf.bigNumber (u32 s.enc.outBase) (u32 t.enc.outPtr - u32 s.enc.outBase) = (EncPort.mk s.enc s.buf).codeValue ∧
        ∀ b, outside b (u32 s.enc.outPtr) (u32 t.enc.outPtr - u32 s.enc.outPtr) → t.buf.byte b = s.buf.byte b

/-- DEC_INIT on a region of BUF of at least five bytes loads bytes 1 to 4 big-endian into DEC_CODE (R291, R293); on a shorter one it
reads them all and raises INPUT_EXHAUSTED with DEC_STATE = FAILED (R293, R298); past BUF it raises BAD_ARGUMENT (R271). -/
def Obligations.DecInitResult : Prop :=
  ∀ s : State, s.buf.size ≤ 2 ^ 20 →
    let a := u32 s.argLo.c0
    let l := u32 s.argLo.c1
    (a + l ≤ s.buf.size → 5 ≤ l →
      exec .decInit s = .next
        { s with
          status := { s.status with busy := false, done := true }
          dec := { code := BitVec.ofNat 32 (s.buf.bigNumber (a + 1) 4), range := 0xFFFFFFFF#32, inBase := s.argLo.c0,
                   inPtr := s.argLo.c0 + 5#32, inEnd := s.argLo.c0 + s.argLo.c1, state := .active } }) ∧
    (a + l ≤ s.buf.size → l < 5 →
      exec .decInit s = .next
        { (s.failedWith .inputExhausted na na) with
          dec := { code := BitVec.ofNat 32 (s.buf.bigNumber a l), range := 0xFFFFFFFF#32, inBase := s.argLo.c0,
                   inPtr := s.argLo.c0 + s.argLo.c1, inEnd := s.argLo.c0 + s.argLo.c1, state := .failed } }) ∧
    (s.buf.size < a + l → exec .decInit s = .next (s.failedWith .badArgument na na))

/-- DEC_VAL on an ACTIVE decoder returns `min(floor(DEC_CODE / r), 32767)` with r = DEC_RANGE >> 15, which is at least 2^9, and changes no
decoder register (R273, R292, R294). -/
def Obligations.DecValResult : Prop :=
  ∀ s : State, s.dec.state = .active → 2 ^ 24 ≤ u32 s.dec.range →
    2 ^ 9 ≤ u32 s.dec.range / 2 ^ 15 ∧
      exec .decVal s = .next (s.doneWith
        { s.result with c0 := BitVec.ofNat 32 (min (u32 s.dec.code / (u32 s.dec.range / 2 ^ 15)) 32767) })

/-- DEC_CONSUME and DEC_SYMB on an ACTIVE decoder with two bytes left complete (R295, R296, R297): with r = range / 2^15, DEC_CODE drops by
r·cum mod 2^32 and takes in k ≤ 2 bytes, as few as bring the range r·fr back to 2^24, and no byte of BUF changes; DEC_SYMB takes the
interval of the symbol x that its scaled value y selects and returns x and y. -/
def Obligations.DecodeSymbolResult : Prop :=
  ∀ (s : State) (i : Instr) (cum fr : Nat) (r : Quad Word), s.buf.Inv → s.dec.Inv s.buf.size → s.dec.state = .active →
    u32 s.dec.inPtr + 2 ≤ u32 s.dec.inEnd →
    ((i = .decConsume ∧ cum = u32 s.argLo.c0 ∧ fr = u32 s.argLo.c1 ∧ 1 ≤ fr ∧ cum + fr ≤ 32768 ∧ r = s.result) ∨
      ∃ (b : Bucket) (x : Int) (y : Nat), i = .decSymb b ∧ y = min (u32 s.dec.code / (u32 s.dec.range / 2 ^ 15)) 32767 ∧
        -128 ≤ x ∧ x ≤ 127 ∧ cum = cdfFn x b ∧ fr = freqFn x b ∧ cum ≤ y ∧ y < cum + fr ∧
        r = { s.result with c0 := toWord x, c1 := BitVec.ofNat 32 y }) →
      ∃ (t : State) (k : Nat), exec i s = .next t ∧ t = { s.doneWith r with dec := t.dec } ∧
        t.dec = { s.dec with code := t.dec.code, range := t.dec.range, inPtr := t.dec.inPtr } ∧ k ≤ 2 ∧
        u32 t.dec.range = u32 s.dec.range / 2 ^ 15 * fr * 256 ^ k ∧ 2 ^ 24 ≤ u32 t.dec.range ∧
        (k = 0 ∨ u32 s.dec.range / 2 ^ 15 * fr * 256 ^ (k - 1) < 2 ^ 24) ∧ u32 t.dec.inPtr = u32 s.dec.inPtr + k ∧
        (u32 t.dec.code : Int) = (((u32 s.dec.code : Int) - u32 s.dec.range / 2 ^ 15 * cum) * 256 ^ k
          + s.buf.bigNumber (u32 s.dec.inPtr) k) % 2 ^ 32

/-- R299: whatever items an encoding from ENC_INIT to ENC_FLUSH holds, symbols in buckets and intervals given directly, a decoding of the
written bytes recovers every one of them and raises no error. (R300 besides: it reads exactly the bytes written.) -/
def Obligations.RangeCoderRoundTrip : Prop :=
  ∀ (s s1 s2 s3 : State) (items : List CodeItem), s.buf.Inv → (∀ i ∈ items, i.legal) → (s.issue .encInit).succeededIn s1 →
    encodesTo s1 s2 items → (s2.issue .encFlush).succeededIn s3 →
      ∃ d1 d2, (s3.decodeFrom s3.enc.outBase s3.result.c0).succeededIn d1 ∧ recoversTo d1 d2 items ∧
        u32 d2.dec.inPtr = u32 s3.enc.outPtr ∧ d2.dec.range = s2.enc.range

/-! ## Block compressor -/

/-- The checks of the block commands, in their order (R360, R383): a region past BUF or an overlap raises BAD_ARGUMENT, and then for
COMPRESS 4n > kc raises SCRATCH_TOO_SMALL(floor(kc/4), n/a), with nothing else changed. -/
def Obligations.BlockChecks : Prop :=
  ∀ s : State,
    (∀ p, ¬compressChecked s → exec (.compress p) s = .next (s.failedWith .badArgument na na)) ∧
    (∀ p, compressChecked s → s.argU 5 < 4 * s.argU 1 →
      exec (.compress p) s = .next (s.failedWith .scratchTooSmall (BitVec.ofNat 32 (s.argU 5 / 4)) na)) ∧
    (¬decompressChecked s → exec .decompress s = .next (s.failedWith .badArgument na na)) ∧
    (decompressChecked s → s.argU 1 = 0 → exec .decompress s = .next
      { (s.failedWith .inputExhausted na na) with dec := { s.dec with state := .failed } }) ∧
    (decompressChecked s → 1 ≤ s.argU 1 → 30 < (s.buf.byte (s.argU 0)).toNat →
      exec .decompress s = .next (s.failedWith .badHeader na na))

/-- COMPRESS of n samples whose symbols all fit, with 4n bytes of scratch and 6 + 8n of output, completes (R361, R366, R367, R368): it
commits the predictor state that the symbols lead to, leaves the symbols in scratch and F in the header byte, then the bytes that
ENC_INIT on the rest of the output region, ENC_SYMB of every symbol in its bucket (R364) and ENC_FLUSH write, with the encoder as they
leave it, counts 6 to 6 + 8n bytes in RESULT0, and changes no byte outside [ka, ka + 4n) and [oa, oa + RESULT0). -/
def Obligations.CompressResult : Prop :=
  ∀ (s : State) (p : Profile) (qs : List (Quad Int)), s.buf.Inv → compressChecked s → 4 * s.argU 1 ≤ s.argU 5 →
    6 + 8 * s.argU 1 ≤ s.argU 3 → blockSymbols (s.profile p) s.pred (s.buf.samples (s.argU 0) (s.argU 1) 0) = some qs →
      ∃ t : State, exec (.compress p) s = .next t ∧
        t = { s with status := { s.status with busy := false, done := true }, result := { s.result with c0 := t.result.c0 },
                     enc := t.enc, pred := stepsWith (s.profile p) s.pred qs, buf := t.buf } ∧
        t.enc.state = .flushed ∧ u32 t.enc.outBase = s.argU 2 + 1 ∧ u32 t.enc.outEnd = s.argU 2 + s.argU 3 ∧
        u32 t.enc.outPtr = s.argU 2 + u32 t.result.c0 ∧ 6 ≤ u32 t.result.c0 ∧ u32 t.result.c0 ≤ 6 + 8 * s.argU 1 ∧
        t.buf.byte (s.argU 2) = BitVec.ofNat 8 (s.profile p) ∧
        (∃ e1 e2 e3, (s.encodeInto (s.argLo.c2 + 1#32) (s.argLo.c3 - 1#32)).succeededIn e1 ∧
          encodesTo e1 e2 (blockItems (s.profile p) s.pred qs) ∧ (e2.issue .encFlush).succeededIn e3 ∧ t.enc = e3.enc ∧
          ∀ k, 1 ≤ k → k < u32 t.result.c0 → t.buf.byte (s.argU 2 + k) = e3.buf.byte (s.argU 2 + k)) ∧
        (∀ (i : Nat) (q : Quad Int), qs[i]? = some q → ∀ c, t.buf.symbol (s.argU 4) i c = q.get c) ∧
        ∀ b, outside b (s.argU 4) (4 * s.argU 1) → outside b (s.argU 2) (u32 t.result.c0) → t.buf.byte b = s.buf.byte b

/-- R369: a successful COMPRESS gives `6 <= RESULT0 <= 6 + 8n`, never more than the raw 16n bytes when n ≥ 1, and an output capacity of at
least 6 + 8n never raises OUTPUT_EXHAUSTED. -/
def Obligations.CompressSize : Prop :=
  ∀ (s t : State) (p : Profile), s.buf.Inv → s.accepted → exec (.compress p) s = .next t →
    (t.status.err = false → 6 ≤ u32 t.result.c0 ∧ u32 t.result.c0 ≤ 6 + 8 * s.argU 1 ∧
      (1 ≤ s.argU 1 → u32 t.result.c0 ≤ 16 * s.argU 1)) ∧
    (6 + 8 * s.argU 1 ≤ s.argU 3 → t.status.errcode ≠ .outputExhausted)

/-- What a failed COMPRESS leaves (R363, R364, R367): the predictor unchanged; after QUANT_OVERFLOW(i, c), where (i, c) is the first
symbol that overflows, the encoder unchanged, every symbol before (i, c) in its scratch byte and no other byte of BUF changed; after
OUTPUT_EXHAUSTED ENC_STATE = FAILED, all 4n symbols in their scratch bytes, and besides them no byte changed but the output's up to
OUT_PTR, with the header F first, or none and no encoder register if oc = 0. -/
def Obligations.CompressFailure : Prop :=
  ∀ (s t : State) (p : Profile), s.buf.Inv → s.accepted → exec (.compress p) s = .next t → t.failed →
    keptOutsideCoder s t ∧ t.pred = s.pred ∧ t.dec = s.dec ∧ t.result = s.result ∧
    (t.status.errcode = .quantOverflow → t.enc = s.enc ∧
      (∃ qs, blockSymbols (s.profile p) s.pred (s.buf.samples (s.argU 0) (u32 t.errSample) 0) = some qs ∧
        (∀ (i : Nat) (q : Quad Int), qs[i]? = some q → ∀ c, t.buf.symbol (s.argU 4) i c = q.get c) ∧
        let a := s.buf.sample (s.argU 0) (u32 t.errSample)
        let pr := (stepsWith (s.profile p) s.pred qs).prediction
        ∀ c : Fin 4,
          (c.val < u32 t.errChan → quantOverflows (a.get c) (pr.get c) (s.profile p) = false ∧
            t.buf.symbol (s.argU 4) (u32 t.errSample) c = quantFn (a.get c) (pr.get c) (s.profile p)) ∧
          (c.val = u32 t.errChan → quantOverflows (a.get c) (pr.get c) (s.profile p) = true)) ∧
      ∀ b, outside b (s.argU 4) (4 * u32 t.errSample + u32 t.errChan) → t.buf.byte b = s.buf.byte b) ∧
    (t.status.errcode = .outputExhausted → t.enc.state = .failed ∧
      (∃ qs, blockSymbols (s.profile p) s.pred (s.buf.samples (s.argU 0) (s.argU 1) 0) = some qs ∧
        ∀ (i : Nat) (q : Quad Int), qs[i]? = some q → ∀ c, t.buf.symbol (s.argU 4) i c = q.get c) ∧
      (s.argU 3 = 0 → t.enc = { s.enc with state := .failed } ∧
        ∀ b, outside b (s.argU 4) (4 * s.argU 1) → t.buf.byte b = s.buf.byte b) ∧
      (1 ≤ s.argU 3 → t.buf.byte (s.argU 2) = BitVec.ofNat 8 (s.profile p) ∧ u32 t.enc.outBase = s.argU 2 + 1 ∧
        s.argU 2 < u32 t.enc.outPtr ∧ u32 t.enc.outPtr ≤ s.argU 2 + s.argU 3 ∧
        ∀ b, outside b (s.argU 4) (4 * s.argU 1) → outside b (s.argU 2) (u32 t.enc.outPtr - s.argU 2) →
          t.buf.byte b = s.buf.byte b))

/-- R381: a failed COMPRESS leaves the predictor state bit-identical, and an identical COMPRESS accepted after it fails in the same way and
leaves the same state, as data: the second call changes nothing. The second acceptance is of the word that the latch holds, which
the model keeps after a completion (its choice, log entry 6). -/
def Obligations.FailedCompressCanBeRetried : Prop :=
  ∀ (s t : State) (p : Profile), s.buf.Inv → s.accepted → exec (.compress p) s = .next t → t.failed →
    t.pred = s.pred ∧ exec (.compress p) (t.accept t.latch) = .next t

/-- DECOMPRESS of n samples with a header of at most 30 and 6 + 8n input bytes completes (R370, R371, R378): it decodes n samples' symbols,
the ones that DEC_INIT on the input after the header and DEC_SYMB in each symbol's bucket return, leaving the decoder as they do;
it commits the predictor state they lead to, writes exactly their reconstructions to [sa, sa + 16n), counts 6 to 6 + 8n bytes in
RESULT0, and leaves every other byte and the encoder alone. -/
def Obligations.DecompressResult : Prop :=
  ∀ s : State, s.buf.Inv → decompressChecked s → 6 + 8 * s.argU 2 ≤ s.argU 1 → (s.buf.byte (s.argU 0)).toNat ≤ 30 →
    ∃ (t d1 d2 : State) (qs : List (Quad Int)), exec .decompress s = .next t ∧ qs.length = s.argU 2 ∧
      (∀ q ∈ qs, ∀ c, -128 ≤ q.get c ∧ q.get c ≤ 127) ∧
      (s.decodeFrom (s.argLo.c0 + 1#32) (s.argLo.c1 - 1#32)).succeededIn d1 ∧
      recoversTo d1 d2 (blockItems (s.buf.byte (s.argU 0)).toNat s.pred qs) ∧ t.dec = d2.dec ∧
      t = { s with status := { s.status with busy := false, done := true }, result := { s.result with c0 := t.result.c0 },
                   dec := t.dec, pred := stepsWith (s.buf.byte (s.argU 0)).toNat s.pred qs, buf := t.buf } ∧
      t.dec.state = .active ∧ u32 t.dec.inBase = s.argU 0 + 1 ∧ u32 t.dec.inEnd = s.argU 0 + s.argU 1 ∧
      u32 t.dec.inPtr = s.argU 0 + u32 t.result.c0 ∧ 6 ≤ u32 t.result.c0 ∧ u32 t.result.c0 ≤ 6 + 8 * s.argU 2 ∧
      t.buf.samples (s.argU 3) (s.argU 2) 0 = reconstructions (s.buf.byte (s.argU 0)).toNat s.pred qs ∧
      ∀ b, outside b (s.argU 3) (16 * s.argU 2) → t.buf.byte b = s.buf.byte b

/-- What a DECOMPRESS that runs out of input leaves (R371): the predictor, the encoder and the RESULT registers unchanged and DEC_STATE =
FAILED. Before the first symbol, at (n/a, n/a), no byte has changed, and the decoder is as DEC_INIT leaves it when it runs out of the
input after the header, or, with no header, as before but for its state. At (i, c), the samples 0 to i − 1 of the sample region are
the reconstructions of the symbols that DEC_INIT and DEC_SYMB return, no other byte has changed, DEC_SYMB returns the first c symbols
of sample i too and then runs out of input, and the decoder is as that DEC_SYMB leaves it. -/
def Obligations.DecompressExhaustion : Prop :=
  ∀ s t : State, s.buf.Inv → s.accepted → exec .decompress s = .next t → t.status.errcode = .inputExhausted →
    let f := (s.buf.byte (s.argU 0)).toNat
    let start := s.decodeFrom (s.argLo.c0 + 1#32) (s.argLo.c1 - 1#32)
    keptOutsideCoder s t ∧ t.pred = s.pred ∧ t.enc = s.enc ∧ t.result = s.result ∧ t.dec.state = .failed ∧
      (t.errSample = na → t.buf = s.buf ∧ (s.argU 1 = 0 → t.dec = { s.dec with state := .failed }) ∧
        (1 ≤ s.argU 1 → ∃ d, start = .next d ∧ d.status.errcode = .inputExhausted ∧ t.dec = d.dec)) ∧
      (t.errSample ≠ na → u32 t.errSample < s.argU 2 ∧
        (∃ (d1 d2 d3 : State) (qs : List (Quad Int)) (q : Quad Int) (c : Fin 4), start.succeededIn d1 ∧
          qs.length = u32 t.errSample ∧ (∀ q ∈ qs, ∀ c, -128 ≤ q.get c ∧ q.get c ≤ 127) ∧ c.val = u32 t.errChan ∧
          recoversTo d1 d2 (blockItems f s.pred qs ++ (sampleItems (stepsWith f s.pred qs).var q).take c.val) ∧
          d2.issue (.decSymb (classifyFn ((stepsWith f s.pred qs).var.get c))) = .next d3 ∧
          d3.status.errcode = .inputExhausted ∧ t.dec = d3.dec ∧
          t.buf.samples (s.argU 3) (u32 t.errSample) 0 = reconstructions f s.pred qs) ∧
        ∀ b, outside b (s.argU 3) (16 * u32 t.errSample) → t.buf.byte b = s.buf.byte b)

/-- R379: a core that decompresses what another core, with an equal committed predictor state, compressed, given the same n, room and at
least the payload's bytes, raises no error, ends with the same committed state and RESULT0, and writes the encoder's reconstructions,
each component within half a step of the original, `2^(29 − F)`. -/
def Obligations.BlockRoundTrip : Prop :=
  ∀ (s t u : State) (p : Profile), s.buf.Inv → u.buf.Inv → s.accepted → u.accepted → s.pred = u.pred →
    exec (.compress p) s = .next t → t.status.err = false → u.argU 2 = s.argU 1 → u32 t.result.c0 ≤ u.argU 1 → decompressChecked u →
    (∀ k, k < u32 t.result.c0 → u.buf.byte (u.argU 0 + k) = t.buf.byte (s.argU 2 + k)) →
      ∃ (v : State) (qs : List (Quad Int)), exec .decompress u = .next v ∧ v.status.err = false ∧ v.pred = t.pred ∧
        v.result.c0 = t.result.c0 ∧ blockSymbols (s.profile p) s.pred (s.buf.samples (s.argU 0) (s.argU 1) 0) = some qs ∧
        v.buf.samples (u.argU 3) (u.argU 2) 0 = reconstructions (s.profile p) s.pred qs ∧
        ∀ (i : Nat) (c : Fin 4), i < s.argU 1 →
          2 * |v.buf.component (u.argU 3) i c - s.buf.component (s.argU 0) i c| ≤ 2 ^ (30 - s.profile p)
end

