-- ==== Sys2Proof/Laws/Memory.lean ====
section
/-! SUPPORT. The laws of BUF: what a store leaves at each address, that every memory operation keeps the canonical form, that
equal contents are equal data, and what `memRead` and `memWrite` can do. -/

namespace Sys2Proof
namespace Machine

/-! ## Cells -/

@[simp] theorem findCell_storeCell_same (cells : List Host.Cell) (a : Nat) (v : Byte) :
    findCell (storeCell cells a v) a = some v := by
  induction cells with
  | nil => simp [storeCell, findCell]
  | cons c rest ih =>
    obtain ⟨b, x⟩ := c
    unfold storeCell
    split
    · simp [findCell]
    · split
      · simp [findCell]
      · rename_i h1 h2
        have : b ≠ a := fun h => h2 h.symm
        simp [findCell, this, ih]

theorem findCell_storeCell_ne (cells : List Host.Cell) {a b : Nat} (v : Byte) (h : b ≠ a) :
    findCell (storeCell cells a v) b = findCell cells b := by
  induction cells with
  | nil => simp [storeCell, findCell, h.symm]
  | cons c rest ih =>
    obtain ⟨d, x⟩ := c
    unfold storeCell
    split
    · simp [findCell, h.symm]
    · split
      · rename_i h1 h2
        subst h2
        simp [findCell, h.symm]
      · simp [findCell, ih]

/-- The canonical form as a statement about the list: addresses strictly rising, all inside BUF. -/
theorem cellsWf_iff (size : Nat) (cells : List Host.Cell) :
    cellsWf size cells = true ↔ cells.Pairwise (fun c d => c.1 < d.1) ∧ ∀ c ∈ cells, c.1 < size := by
  induction cells with
  | nil => simp [cellsWf]
  | cons c rest ih =>
    obtain ⟨a, x⟩ := c
    cases rest with
    | nil => simp [cellsWf]
    | cons d rest =>
      obtain ⟨b, y⟩ := d
      simp only [cellsWf, Bool.and_eq_true, decide_eq_true_eq, ih, List.pairwise_cons, List.mem_cons, forall_eq_or_imp]
      constructor
      · rintro ⟨hab, ⟨hb, hr⟩, hbs, hrs⟩
        exact ⟨⟨⟨hab, fun c hc => hab.trans (hb c hc)⟩, hb, hr⟩, hab.trans hbs, hbs, hrs⟩
      · rintro ⟨⟨⟨hab, _⟩, hb, hr⟩, _, hbs, hrs⟩
        exact ⟨hab, ⟨hb, hr⟩, hbs, hrs⟩

theorem mem_storeCell {cells : List Host.Cell} {a : Nat} {v : Byte} {c : Host.Cell} (h : c ∈ storeCell cells a v) :
    c = (a, v) ∨ c ∈ cells := by
  induction cells with
  | nil => simpa [storeCell] using h
  | cons d rest ih =>
    obtain ⟨b, x⟩ := d
    unfold storeCell at h
    split at h
    · simpa using h
    · split at h
      · simp only [List.mem_cons] at h ⊢
        tauto
      · simp only [List.mem_cons] at h ⊢
        rcases h with h | h
        · exact .inr (.inl h)
        · exact (ih h).imp id .inr

/-- A store keeps the canonical form. -/
theorem cellsWf_storeCell {size : Nat} {cells : List Host.Cell} {a : Nat} (v : Byte) (h : cellsWf size cells = true)
    (ha : a < size) : cellsWf size (storeCell cells a v) = true := by
  rw [cellsWf_iff] at h ⊢
  obtain ⟨hp, hs⟩ := h
  refine ⟨?_, fun c hc => (mem_storeCell hc).elim (fun e => e ▸ ha) (hs c)⟩
  clear hs ha
  induction cells with
  | nil => simp [storeCell]
  | cons d rest ih =>
    obtain ⟨b, x⟩ := d
    obtain ⟨hb, hr⟩ := List.pairwise_cons.1 hp
    unfold storeCell
    split
    · rename_i hlt
      refine List.pairwise_cons.2 ⟨?_, hp⟩
      rintro c (_ | ⟨_, hc⟩)
      · exact hlt
      · exact hlt.trans (hb c hc)
    · split
      · rename_i _ heq
        exact List.pairwise_cons.2 ⟨fun c hc => heq ▸ hb c hc, hr⟩
      · rename_i hlt hne
        refine List.pairwise_cons.2 ⟨fun c hc => ?_, ih hr⟩
        rcases mem_storeCell hc with rfl | hc
        · exact Nat.lt_of_le_of_ne (Nat.le_of_not_lt hlt) fun e => hne e.symm
        · exact hb c hc

theorem findCell_eq_some_of_mem {cells : List Host.Cell} {c : Host.Cell} (hp : cells.Pairwise fun c d => c.1 < d.1)
    (hc : c ∈ cells) : findCell cells c.1 = some c.2 := by
  induction cells with
  | nil => cases hc
  | cons d rest ih =>
    obtain ⟨b, x⟩ := d
    obtain ⟨hb, hr⟩ := List.pairwise_cons.1 hp
    rcases List.mem_cons.1 hc with rfl | hc
    · simp [findCell]
    · have := hb c hc
      simp only [findCell]
      rw [if_neg (by simp only at this; omega)]
      exact ih hr hc

theorem mem_of_findCell {cells : List Host.Cell} {a : Nat} {v : Byte} (h : findCell cells a = some v) : (a, v) ∈ cells := by
  induction cells with
  | nil => simp [findCell] at h
  | cons d rest ih =>
    obtain ⟨b, x⟩ := d
    unfold findCell at h
    split at h
    · rename_i e
      cases h
      subst e
      exact List.mem_cons_self
    · exact List.mem_cons_of_mem _ (ih h)

/-- Equal contents are equal data: two canonical lists that hold the same byte, or none, at every address are one list. -/
theorem cells_ext {c d : List Host.Cell} (hc : c.Pairwise fun x y => x.1 < y.1) (hd : d.Pairwise fun x y => x.1 < y.1)
    (h : ∀ a, findCell c a = findCell d a) : c = d := by
  refine List.Perm.eq_of_pairwise (le := fun x y => x.1 < y.1) ?_ hc hd ?_
  · intro x y _ _ hxy hyx
    omega
  · refine (List.perm_ext_iff_of_nodup ?_ ?_).2 ?_
    · exact hc.imp fun h e => absurd (e ▸ h) (lt_irrefl _)
    · exact hd.imp fun h e => absurd (e ▸ h) (lt_irrefl _)
    · intro x
      constructor
      · intro hx
        exact mem_of_findCell (h x.1 ▸ findCell_eq_some_of_mem hc hx)
      · intro hx
        exact mem_of_findCell (h x.1 ▸ findCell_eq_some_of_mem hd hx)

/-! ## One byte -/

/-- What a store can do: the address exists, and only its byte changes. -/
theorem store_eq_some {m m' : Buf} {a : Nat} {v : Byte} (h : m.store a v = some m') :
    a < m.size ∧ m' = { m with cells := storeCell m.cells a v } := by
  unfold Buf.store at h
  split at h
  · rename_i ha
    exact ⟨ha, by simpa using h.symm⟩
  · cases h

theorem store_of_lt {m : Buf} {a : Nat} (v : Byte) (h : a < m.size) :
    m.store a v = some { m with cells := storeCell m.cells a v } := by
  simp [Buf.store, h]

theorem store_size {m m' : Buf} {a : Nat} {v : Byte} (h : m.store a v = some m') : m'.size = m.size := by
  rw [(store_eq_some h).2]

theorem store_resets {m m' : Buf} {a : Nat} {v : Byte} (h : m.store a v = some m') : m'.resets = m.resets := by
  rw [(store_eq_some h).2]

/-- Read after write, same address. -/
theorem store_byte_same {m m' : Buf} {a : Nat} {v : Byte} (h : m.store a v = some m') : m'.byte a = v := by
  rw [(store_eq_some h).2]
  simp [Buf.byte]

/-- Read after write, another address. -/
theorem store_byte_ne {m m' : Buf} {a b : Nat} {v : Byte} (h : m.store a v = some m') (hb : b ≠ a) : m'.byte b = m.byte b := by
  rw [(store_eq_some h).2]
  simp [Buf.byte, Buf.unlisted, findCell_storeCell_ne _ v hb]

theorem store_wf {m m' : Buf} {a : Nat} {v : Byte} (h : m.store a v = some m') (hw : m.wf = true) : m'.wf = true := by
  obtain ⟨ha, rfl⟩ := store_eq_some h
  exact cellsWf_storeCell v hw ha

/-- What a load can do: the address exists, and it answers its byte. -/
theorem load_eq_some {m : Buf} {a : Nat} {v : Byte} (h : m.load a = some v) : a < m.size ∧ v = m.byte a := by
  unfold Buf.load at h
  split at h
  · rename_i ha
    exact ⟨ha, by simpa using h.symm⟩
  · cases h

theorem load_of_lt {m : Buf} {a : Nat} (h : a < m.size) : m.load a = some (m.byte a) := by
  simp [Buf.load, h]

/-! ## Several bytes -/

/-- `memRead` inside BUF. -/
theorem memRead_of_le {m : Buf} {a n : Nat} (h : a + n ≤ m.size) : memRead m a n = some (m.number a n) := by
  induction n generalizing a with
  | zero => rfl
  | succ n ih => simp [memRead, load_of_lt (show a < m.size by omega), ih (show a + 1 + n ≤ m.size by omega), Buf.number]

/-- Two memories with the same bytes in a range make the same number there. -/
theorem number_congr {m m' : Buf} {a n : Nat} (h : ∀ b, a ≤ b → b < a + n → m'.byte b = m.byte b) :
    m'.number a n = m.number a n := by
  induction n generalizing a with
  | zero => rfl
  | succ n ih =>
    rw [Buf.number, Buf.number, h a (Nat.le_refl _) (by omega), ih fun b h1 h2 => h b (by omega) (by omega)]

/-- What `memWrite` can do: the n bytes exist, they take the bytes of v in order, and every other byte stays. -/
theorem memWrite_eq_some {m m' : Buf} {a n v : Nat} (h : memWrite m a n v = some m') :
    (n = 0 ∨ a + n ≤ m.size) ∧ m'.size = m.size ∧ m'.resets = m.resets ∧ (m.wf = true → m'.wf = true) ∧
      (∀ k, k < n → m'.byte (a + k) = BitVec.ofNat 8 (v / 256 ^ k)) ∧ (∀ b, b < a ∨ a + n ≤ b → m'.byte b = m.byte b) := by
  induction n generalizing m a v with
  | zero =>
    cases h
    exact ⟨.inl rfl, rfl, rfl, id, by omega, fun _ _ => rfl⟩
  | succ n ih =>
    simp only [memWrite, Option.bind_eq_some_iff] at h
    obtain ⟨m1, h1, h2⟩ := h
    obtain ⟨hb, hs, hr, hw, hv, hf⟩ := ih h2
    have ha := (store_eq_some h1).1
    refine ⟨.inr ?_, hs.trans (store_size h1), hr.trans (store_resets h1), fun w => hw (store_wf h1 w), ?_, ?_⟩
    · rw [store_size h1] at hb
      omega
    · intro k hk
      cases k with
      | zero => simpa [store_byte_same h1] using hf a (by omega)
      | succ k =>
        rw [show a + (k + 1) = a + 1 + k by omega, hv k (by omega), Nat.div_div_eq_div_mul, Nat.pow_succ, Nat.mul_comm]
    · intro b hb
      rw [hf b (by omega), store_byte_ne h1 (by omega)]

/-- `memWrite` inside BUF answers. -/
theorem memWrite_of_le {m : Buf} {a n : Nat} (v : Nat) (h : a + n ≤ m.size) : ∃ m', memWrite m a n v = some m' := by
  induction n generalizing m a v with
  | zero => exact ⟨m, rfl⟩
  | succ n ih =>
    obtain ⟨m', h'⟩ := ih (m := { m with cells := storeCell m.cells a (BitVec.ofNat 8 v) }) (a := a + 1) (v / 256)
      (by simp only; omega)
    exact ⟨m', by simp [memWrite, store_of_lt (BitVec.ofNat 8 v) (show a < m.size by omega), h']⟩

/-! ## Regions -/

/-- What a passed region check says of two regions (R360). -/
theorem regionCheck_pair {size : Nat} {r t : Region} (h : regionCheck size [r, t] = true) :
    r.addr + r.len ≤ size ∧ t.addr + t.len ≤ size ∧ r.overlaps t = false := by
  simpa [regionCheck, disjointRegions, Region.inBuf, and_assoc] using h

/-- What a passed region check says of three regions (R360). -/
theorem regionCheck_triple {size : Nat} {r t u : Region} (h : regionCheck size [r, t, u] = true) :
    r.addr + r.len ≤ size ∧ t.addr + t.len ≤ size ∧ u.addr + u.len ≤ size ∧ r.overlaps t = false ∧ r.overlaps u = false ∧
      t.overlaps u = false := by
  simpa [regionCheck, disjointRegions, Region.inBuf, and_assoc] using h

/-- Two regions that do not overlap share no address (R360). -/
theorem not_both_of_overlaps_false {r t : Region} (h : r.overlaps t = false) {a : Nat} (hr : r.addr ≤ a ∧ a < r.addr + r.len) :
    ¬(t.addr ≤ a ∧ a < t.addr + t.len) := by
  simp [Region.overlaps] at h
  omega

end Machine
end Sys2Proof
end

