-- ==== Sys2Proof/Laws/State.lean ====
section
/-! SUPPORT. One lemma per field of State per named update, true by rfl, so that no later proof unfolds a record update. The
updates RESET and SRST make a whole state and have their lemmas in Laws/Ops.lean. -/

namespace Sys2Proof
namespace Machine

/-! ## withInputs -/

@[simp] theorem withInputs_status (s : State) (l : List Input) : (s.withInputs l).status = s.status := rfl
@[simp] theorem withInputs_intEn (s : State) (l : List Input) : (s.withInputs l).intEn = s.intEn := rfl
@[simp] theorem withInputs_prof0 (s : State) (l : List Input) : (s.withInputs l).prof0 = s.prof0 := rfl
@[simp] theorem withInputs_prof1 (s : State) (l : List Input) : (s.withInputs l).prof1 = s.prof1 := rfl
@[simp] theorem withInputs_argLo (s : State) (l : List Input) : (s.withInputs l).argLo = s.argLo := rfl
@[simp] theorem withInputs_argHi (s : State) (l : List Input) : (s.withInputs l).argHi = s.argHi := rfl
@[simp] theorem withInputs_result (s : State) (l : List Input) : (s.withInputs l).result = s.result := rfl
@[simp] theorem withInputs_errSample (s : State) (l : List Input) : (s.withInputs l).errSample = s.errSample := rfl
@[simp] theorem withInputs_errChan (s : State) (l : List Input) : (s.withInputs l).errChan = s.errChan := rfl
@[simp] theorem withInputs_enc (s : State) (l : List Input) : (s.withInputs l).enc = s.enc := rfl
@[simp] theorem withInputs_dec (s : State) (l : List Input) : (s.withInputs l).dec = s.dec := rfl
@[simp] theorem withInputs_pred (s : State) (l : List Input) : (s.withInputs l).pred = s.pred := rfl
@[simp] theorem withInputs_latch (s : State) (l : List Input) : (s.withInputs l).latch = s.latch := rfl
@[simp] theorem withInputs_buf (s : State) (l : List Input) : (s.withInputs l).buf = s.buf := rfl
@[simp] theorem withInputs_baseAddr (s : State) (l : List Input) : (s.withInputs l).baseAddr = s.baseAddr := rfl
@[simp] theorem withInputs_rdata (s : State) (l : List Input) : (s.withInputs l).rdata = s.rdata := rfl
@[simp] theorem withInputs_draws (s : State) (l : List Input) : (s.withInputs l).draws = s.draws := rfl
@[simp] theorem withInputs_inputs (s : State) (l : List Input) : (s.withInputs l).inputs = l := rfl

/-! ## withBuf -/

@[simp] theorem withBuf_status (s : State) (m : Buf) : (s.withBuf m).status = s.status := rfl
@[simp] theorem withBuf_intEn (s : State) (m : Buf) : (s.withBuf m).intEn = s.intEn := rfl
@[simp] theorem withBuf_prof0 (s : State) (m : Buf) : (s.withBuf m).prof0 = s.prof0 := rfl
@[simp] theorem withBuf_prof1 (s : State) (m : Buf) : (s.withBuf m).prof1 = s.prof1 := rfl
@[simp] theorem withBuf_argLo (s : State) (m : Buf) : (s.withBuf m).argLo = s.argLo := rfl
@[simp] theorem withBuf_argHi (s : State) (m : Buf) : (s.withBuf m).argHi = s.argHi := rfl
@[simp] theorem withBuf_result (s : State) (m : Buf) : (s.withBuf m).result = s.result := rfl
@[simp] theorem withBuf_errSample (s : State) (m : Buf) : (s.withBuf m).errSample = s.errSample := rfl
@[simp] theorem withBuf_errChan (s : State) (m : Buf) : (s.withBuf m).errChan = s.errChan := rfl
@[simp] theorem withBuf_enc (s : State) (m : Buf) : (s.withBuf m).enc = s.enc := rfl
@[simp] theorem withBuf_dec (s : State) (m : Buf) : (s.withBuf m).dec = s.dec := rfl
@[simp] theorem withBuf_pred (s : State) (m : Buf) : (s.withBuf m).pred = s.pred := rfl
@[simp] theorem withBuf_latch (s : State) (m : Buf) : (s.withBuf m).latch = s.latch := rfl
@[simp] theorem withBuf_buf (s : State) (m : Buf) : (s.withBuf m).buf = m := rfl
@[simp] theorem withBuf_baseAddr (s : State) (m : Buf) : (s.withBuf m).baseAddr = s.baseAddr := rfl
@[simp] theorem withBuf_rdata (s : State) (m : Buf) : (s.withBuf m).rdata = s.rdata := rfl
@[simp] theorem withBuf_draws (s : State) (m : Buf) : (s.withBuf m).draws = s.draws := rfl
@[simp] theorem withBuf_inputs (s : State) (m : Buf) : (s.withBuf m).inputs = s.inputs := rfl

/-! ## withEnc -/

@[simp] theorem withEnc_status (s : State) (e : Encoder) : (s.withEnc e).status = s.status := rfl
@[simp] theorem withEnc_intEn (s : State) (e : Encoder) : (s.withEnc e).intEn = s.intEn := rfl
@[simp] theorem withEnc_prof0 (s : State) (e : Encoder) : (s.withEnc e).prof0 = s.prof0 := rfl
@[simp] theorem withEnc_prof1 (s : State) (e : Encoder) : (s.withEnc e).prof1 = s.prof1 := rfl
@[simp] theorem withEnc_argLo (s : State) (e : Encoder) : (s.withEnc e).argLo = s.argLo := rfl
@[simp] theorem withEnc_argHi (s : State) (e : Encoder) : (s.withEnc e).argHi = s.argHi := rfl
@[simp] theorem withEnc_result (s : State) (e : Encoder) : (s.withEnc e).result = s.result := rfl
@[simp] theorem withEnc_errSample (s : State) (e : Encoder) : (s.withEnc e).errSample = s.errSample := rfl
@[simp] theorem withEnc_errChan (s : State) (e : Encoder) : (s.withEnc e).errChan = s.errChan := rfl
@[simp] theorem withEnc_enc (s : State) (e : Encoder) : (s.withEnc e).enc = e := rfl
@[simp] theorem withEnc_dec (s : State) (e : Encoder) : (s.withEnc e).dec = s.dec := rfl
@[simp] theorem withEnc_pred (s : State) (e : Encoder) : (s.withEnc e).pred = s.pred := rfl
@[simp] theorem withEnc_latch (s : State) (e : Encoder) : (s.withEnc e).latch = s.latch := rfl
@[simp] theorem withEnc_buf (s : State) (e : Encoder) : (s.withEnc e).buf = s.buf := rfl
@[simp] theorem withEnc_baseAddr (s : State) (e : Encoder) : (s.withEnc e).baseAddr = s.baseAddr := rfl
@[simp] theorem withEnc_rdata (s : State) (e : Encoder) : (s.withEnc e).rdata = s.rdata := rfl
@[simp] theorem withEnc_draws (s : State) (e : Encoder) : (s.withEnc e).draws = s.draws := rfl
@[simp] theorem withEnc_inputs (s : State) (e : Encoder) : (s.withEnc e).inputs = s.inputs := rfl

/-! ## withDec -/

@[simp] theorem withDec_status (s : State) (d : Decoder) : (s.withDec d).status = s.status := rfl
@[simp] theorem withDec_intEn (s : State) (d : Decoder) : (s.withDec d).intEn = s.intEn := rfl
@[simp] theorem withDec_prof0 (s : State) (d : Decoder) : (s.withDec d).prof0 = s.prof0 := rfl
@[simp] theorem withDec_prof1 (s : State) (d : Decoder) : (s.withDec d).prof1 = s.prof1 := rfl
@[simp] theorem withDec_argLo (s : State) (d : Decoder) : (s.withDec d).argLo = s.argLo := rfl
@[simp] theorem withDec_argHi (s : State) (d : Decoder) : (s.withDec d).argHi = s.argHi := rfl
@[simp] theorem withDec_result (s : State) (d : Decoder) : (s.withDec d).result = s.result := rfl
@[simp] theorem withDec_errSample (s : State) (d : Decoder) : (s.withDec d).errSample = s.errSample := rfl
@[simp] theorem withDec_errChan (s : State) (d : Decoder) : (s.withDec d).errChan = s.errChan := rfl
@[simp] theorem withDec_enc (s : State) (d : Decoder) : (s.withDec d).enc = s.enc := rfl
@[simp] theorem withDec_dec (s : State) (d : Decoder) : (s.withDec d).dec = d := rfl
@[simp] theorem withDec_pred (s : State) (d : Decoder) : (s.withDec d).pred = s.pred := rfl
@[simp] theorem withDec_latch (s : State) (d : Decoder) : (s.withDec d).latch = s.latch := rfl
@[simp] theorem withDec_buf (s : State) (d : Decoder) : (s.withDec d).buf = s.buf := rfl
@[simp] theorem withDec_baseAddr (s : State) (d : Decoder) : (s.withDec d).baseAddr = s.baseAddr := rfl
@[simp] theorem withDec_rdata (s : State) (d : Decoder) : (s.withDec d).rdata = s.rdata := rfl
@[simp] theorem withDec_draws (s : State) (d : Decoder) : (s.withDec d).draws = s.draws := rfl
@[simp] theorem withDec_inputs (s : State) (d : Decoder) : (s.withDec d).inputs = s.inputs := rfl

/-! ## withPred -/

@[simp] theorem withPred_status (s : State) (p : Predictor) : (s.withPred p).status = s.status := rfl
@[simp] theorem withPred_intEn (s : State) (p : Predictor) : (s.withPred p).intEn = s.intEn := rfl
@[simp] theorem withPred_prof0 (s : State) (p : Predictor) : (s.withPred p).prof0 = s.prof0 := rfl
@[simp] theorem withPred_prof1 (s : State) (p : Predictor) : (s.withPred p).prof1 = s.prof1 := rfl
@[simp] theorem withPred_argLo (s : State) (p : Predictor) : (s.withPred p).argLo = s.argLo := rfl
@[simp] theorem withPred_argHi (s : State) (p : Predictor) : (s.withPred p).argHi = s.argHi := rfl
@[simp] theorem withPred_result (s : State) (p : Predictor) : (s.withPred p).result = s.result := rfl
@[simp] theorem withPred_errSample (s : State) (p : Predictor) : (s.withPred p).errSample = s.errSample := rfl
@[simp] theorem withPred_errChan (s : State) (p : Predictor) : (s.withPred p).errChan = s.errChan := rfl
@[simp] theorem withPred_enc (s : State) (p : Predictor) : (s.withPred p).enc = s.enc := rfl
@[simp] theorem withPred_dec (s : State) (p : Predictor) : (s.withPred p).dec = s.dec := rfl
@[simp] theorem withPred_pred (s : State) (p : Predictor) : (s.withPred p).pred = p := rfl
@[simp] theorem withPred_latch (s : State) (p : Predictor) : (s.withPred p).latch = s.latch := rfl
@[simp] theorem withPred_buf (s : State) (p : Predictor) : (s.withPred p).buf = s.buf := rfl
@[simp] theorem withPred_baseAddr (s : State) (p : Predictor) : (s.withPred p).baseAddr = s.baseAddr := rfl
@[simp] theorem withPred_rdata (s : State) (p : Predictor) : (s.withPred p).rdata = s.rdata := rfl
@[simp] theorem withPred_draws (s : State) (p : Predictor) : (s.withPred p).draws = s.draws := rfl
@[simp] theorem withPred_inputs (s : State) (p : Predictor) : (s.withPred p).inputs = s.inputs := rfl

/-! ## withResult -/

@[simp] theorem withResult_status (s : State) (r : Quad Word) : (s.withResult r).status = s.status := rfl
@[simp] theorem withResult_intEn (s : State) (r : Quad Word) : (s.withResult r).intEn = s.intEn := rfl
@[simp] theorem withResult_prof0 (s : State) (r : Quad Word) : (s.withResult r).prof0 = s.prof0 := rfl
@[simp] theorem withResult_prof1 (s : State) (r : Quad Word) : (s.withResult r).prof1 = s.prof1 := rfl
@[simp] theorem withResult_argLo (s : State) (r : Quad Word) : (s.withResult r).argLo = s.argLo := rfl
@[simp] theorem withResult_argHi (s : State) (r : Quad Word) : (s.withResult r).argHi = s.argHi := rfl
@[simp] theorem withResult_result (s : State) (r : Quad Word) : (s.withResult r).result = r := rfl
@[simp] theorem withResult_errSample (s : State) (r : Quad Word) : (s.withResult r).errSample = s.errSample := rfl
@[simp] theorem withResult_errChan (s : State) (r : Quad Word) : (s.withResult r).errChan = s.errChan := rfl
@[simp] theorem withResult_enc (s : State) (r : Quad Word) : (s.withResult r).enc = s.enc := rfl
@[simp] theorem withResult_dec (s : State) (r : Quad Word) : (s.withResult r).dec = s.dec := rfl
@[simp] theorem withResult_pred (s : State) (r : Quad Word) : (s.withResult r).pred = s.pred := rfl
@[simp] theorem withResult_latch (s : State) (r : Quad Word) : (s.withResult r).latch = s.latch := rfl
@[simp] theorem withResult_buf (s : State) (r : Quad Word) : (s.withResult r).buf = s.buf := rfl
@[simp] theorem withResult_baseAddr (s : State) (r : Quad Word) : (s.withResult r).baseAddr = s.baseAddr := rfl
@[simp] theorem withResult_rdata (s : State) (r : Quad Word) : (s.withResult r).rdata = s.rdata := rfl
@[simp] theorem withResult_draws (s : State) (r : Quad Word) : (s.withResult r).draws = s.draws := rfl
@[simp] theorem withResult_inputs (s : State) (r : Quad Word) : (s.withResult r).inputs = s.inputs := rfl

/-! ## withResult0 -/

@[simp] theorem withResult0_status (s : State) (v : Word) : (s.withResult0 v).status = s.status := rfl
@[simp] theorem withResult0_intEn (s : State) (v : Word) : (s.withResult0 v).intEn = s.intEn := rfl
@[simp] theorem withResult0_prof0 (s : State) (v : Word) : (s.withResult0 v).prof0 = s.prof0 := rfl
@[simp] theorem withResult0_prof1 (s : State) (v : Word) : (s.withResult0 v).prof1 = s.prof1 := rfl
@[simp] theorem withResult0_argLo (s : State) (v : Word) : (s.withResult0 v).argLo = s.argLo := rfl
@[simp] theorem withResult0_argHi (s : State) (v : Word) : (s.withResult0 v).argHi = s.argHi := rfl
@[simp] theorem withResult0_result (s : State) (v : Word) : (s.withResult0 v).result = { s.result with c0 := v } := rfl
@[simp] theorem withResult0_errSample (s : State) (v : Word) : (s.withResult0 v).errSample = s.errSample := rfl
@[simp] theorem withResult0_errChan (s : State) (v : Word) : (s.withResult0 v).errChan = s.errChan := rfl
@[simp] theorem withResult0_enc (s : State) (v : Word) : (s.withResult0 v).enc = s.enc := rfl
@[simp] theorem withResult0_dec (s : State) (v : Word) : (s.withResult0 v).dec = s.dec := rfl
@[simp] theorem withResult0_pred (s : State) (v : Word) : (s.withResult0 v).pred = s.pred := rfl
@[simp] theorem withResult0_latch (s : State) (v : Word) : (s.withResult0 v).latch = s.latch := rfl
@[simp] theorem withResult0_buf (s : State) (v : Word) : (s.withResult0 v).buf = s.buf := rfl
@[simp] theorem withResult0_baseAddr (s : State) (v : Word) : (s.withResult0 v).baseAddr = s.baseAddr := rfl
@[simp] theorem withResult0_rdata (s : State) (v : Word) : (s.withResult0 v).rdata = s.rdata := rfl
@[simp] theorem withResult0_draws (s : State) (v : Word) : (s.withResult0 v).draws = s.draws := rfl
@[simp] theorem withResult0_inputs (s : State) (v : Word) : (s.withResult0 v).inputs = s.inputs := rfl

/-! ## withResult01 -/

@[simp] theorem withResult01_status (s : State) (v0 v1 : Word) : (s.withResult01 v0 v1).status = s.status := rfl
@[simp] theorem withResult01_intEn (s : State) (v0 v1 : Word) : (s.withResult01 v0 v1).intEn = s.intEn := rfl
@[simp] theorem withResult01_prof0 (s : State) (v0 v1 : Word) : (s.withResult01 v0 v1).prof0 = s.prof0 := rfl
@[simp] theorem withResult01_prof1 (s : State) (v0 v1 : Word) : (s.withResult01 v0 v1).prof1 = s.prof1 := rfl
@[simp] theorem withResult01_argLo (s : State) (v0 v1 : Word) : (s.withResult01 v0 v1).argLo = s.argLo := rfl
@[simp] theorem withResult01_argHi (s : State) (v0 v1 : Word) : (s.withResult01 v0 v1).argHi = s.argHi := rfl
@[simp] theorem withResult01_result (s : State) (v0 v1 : Word) : (s.withResult01 v0 v1).result = { s.result with c0 := v0, c1 := v1 } := rfl
@[simp] theorem withResult01_errSample (s : State) (v0 v1 : Word) : (s.withResult01 v0 v1).errSample = s.errSample := rfl
@[simp] theorem withResult01_errChan (s : State) (v0 v1 : Word) : (s.withResult01 v0 v1).errChan = s.errChan := rfl
@[simp] theorem withResult01_enc (s : State) (v0 v1 : Word) : (s.withResult01 v0 v1).enc = s.enc := rfl
@[simp] theorem withResult01_dec (s : State) (v0 v1 : Word) : (s.withResult01 v0 v1).dec = s.dec := rfl
@[simp] theorem withResult01_pred (s : State) (v0 v1 : Word) : (s.withResult01 v0 v1).pred = s.pred := rfl
@[simp] theorem withResult01_latch (s : State) (v0 v1 : Word) : (s.withResult01 v0 v1).latch = s.latch := rfl
@[simp] theorem withResult01_buf (s : State) (v0 v1 : Word) : (s.withResult01 v0 v1).buf = s.buf := rfl
@[simp] theorem withResult01_baseAddr (s : State) (v0 v1 : Word) : (s.withResult01 v0 v1).baseAddr = s.baseAddr := rfl
@[simp] theorem withResult01_rdata (s : State) (v0 v1 : Word) : (s.withResult01 v0 v1).rdata = s.rdata := rfl
@[simp] theorem withResult01_draws (s : State) (v0 v1 : Word) : (s.withResult01 v0 v1).draws = s.draws := rfl
@[simp] theorem withResult01_inputs (s : State) (v0 v1 : Word) : (s.withResult01 v0 v1).inputs = s.inputs := rfl

/-! ## withResult012 -/

@[simp] theorem withResult012_status (s : State) (v0 v1 v2 : Word) : (s.withResult012 v0 v1 v2).status = s.status := rfl
@[simp] theorem withResult012_intEn (s : State) (v0 v1 v2 : Word) : (s.withResult012 v0 v1 v2).intEn = s.intEn := rfl
@[simp] theorem withResult012_prof0 (s : State) (v0 v1 v2 : Word) : (s.withResult012 v0 v1 v2).prof0 = s.prof0 := rfl
@[simp] theorem withResult012_prof1 (s : State) (v0 v1 v2 : Word) : (s.withResult012 v0 v1 v2).prof1 = s.prof1 := rfl
@[simp] theorem withResult012_argLo (s : State) (v0 v1 v2 : Word) : (s.withResult012 v0 v1 v2).argLo = s.argLo := rfl
@[simp] theorem withResult012_argHi (s : State) (v0 v1 v2 : Word) : (s.withResult012 v0 v1 v2).argHi = s.argHi := rfl
@[simp] theorem withResult012_result (s : State) (v0 v1 v2 : Word) : (s.withResult012 v0 v1 v2).result = { s.result with c0 := v0, c1 := v1, c2 := v2 } := rfl
@[simp] theorem withResult012_errSample (s : State) (v0 v1 v2 : Word) : (s.withResult012 v0 v1 v2).errSample = s.errSample := rfl
@[simp] theorem withResult012_errChan (s : State) (v0 v1 v2 : Word) : (s.withResult012 v0 v1 v2).errChan = s.errChan := rfl
@[simp] theorem withResult012_enc (s : State) (v0 v1 v2 : Word) : (s.withResult012 v0 v1 v2).enc = s.enc := rfl
@[simp] theorem withResult012_dec (s : State) (v0 v1 v2 : Word) : (s.withResult012 v0 v1 v2).dec = s.dec := rfl
@[simp] theorem withResult012_pred (s : State) (v0 v1 v2 : Word) : (s.withResult012 v0 v1 v2).pred = s.pred := rfl
@[simp] theorem withResult012_latch (s : State) (v0 v1 v2 : Word) : (s.withResult012 v0 v1 v2).latch = s.latch := rfl
@[simp] theorem withResult012_buf (s : State) (v0 v1 v2 : Word) : (s.withResult012 v0 v1 v2).buf = s.buf := rfl
@[simp] theorem withResult012_baseAddr (s : State) (v0 v1 v2 : Word) : (s.withResult012 v0 v1 v2).baseAddr = s.baseAddr := rfl
@[simp] theorem withResult012_rdata (s : State) (v0 v1 v2 : Word) : (s.withResult012 v0 v1 v2).rdata = s.rdata := rfl
@[simp] theorem withResult012_draws (s : State) (v0 v1 v2 : Word) : (s.withResult012 v0 v1 v2).draws = s.draws := rfl
@[simp] theorem withResult012_inputs (s : State) (v0 v1 v2 : Word) : (s.withResult012 v0 v1 v2).inputs = s.inputs := rfl

/-! ## withEncPort -/

@[simp] theorem withEncPort_status (s : State) (p : EncPort) : (s.withEncPort p).status = s.status := rfl
@[simp] theorem withEncPort_intEn (s : State) (p : EncPort) : (s.withEncPort p).intEn = s.intEn := rfl
@[simp] theorem withEncPort_prof0 (s : State) (p : EncPort) : (s.withEncPort p).prof0 = s.prof0 := rfl
@[simp] theorem withEncPort_prof1 (s : State) (p : EncPort) : (s.withEncPort p).prof1 = s.prof1 := rfl
@[simp] theorem withEncPort_argLo (s : State) (p : EncPort) : (s.withEncPort p).argLo = s.argLo := rfl
@[simp] theorem withEncPort_argHi (s : State) (p : EncPort) : (s.withEncPort p).argHi = s.argHi := rfl
@[simp] theorem withEncPort_result (s : State) (p : EncPort) : (s.withEncPort p).result = s.result := rfl
@[simp] theorem withEncPort_errSample (s : State) (p : EncPort) : (s.withEncPort p).errSample = s.errSample := rfl
@[simp] theorem withEncPort_errChan (s : State) (p : EncPort) : (s.withEncPort p).errChan = s.errChan := rfl
@[simp] theorem withEncPort_enc (s : State) (p : EncPort) : (s.withEncPort p).enc = p.enc := rfl
@[simp] theorem withEncPort_dec (s : State) (p : EncPort) : (s.withEncPort p).dec = s.dec := rfl
@[simp] theorem withEncPort_pred (s : State) (p : EncPort) : (s.withEncPort p).pred = s.pred := rfl
@[simp] theorem withEncPort_latch (s : State) (p : EncPort) : (s.withEncPort p).latch = s.latch := rfl
@[simp] theorem withEncPort_buf (s : State) (p : EncPort) : (s.withEncPort p).buf = p.buf := rfl
@[simp] theorem withEncPort_baseAddr (s : State) (p : EncPort) : (s.withEncPort p).baseAddr = s.baseAddr := rfl
@[simp] theorem withEncPort_rdata (s : State) (p : EncPort) : (s.withEncPort p).rdata = s.rdata := rfl
@[simp] theorem withEncPort_draws (s : State) (p : EncPort) : (s.withEncPort p).draws = s.draws := rfl
@[simp] theorem withEncPort_inputs (s : State) (p : EncPort) : (s.withEncPort p).inputs = s.inputs := rfl

/-! ## withDecPort -/

@[simp] theorem withDecPort_status (s : State) (p : DecPort) : (s.withDecPort p).status = s.status := rfl
@[simp] theorem withDecPort_intEn (s : State) (p : DecPort) : (s.withDecPort p).intEn = s.intEn := rfl
@[simp] theorem withDecPort_prof0 (s : State) (p : DecPort) : (s.withDecPort p).prof0 = s.prof0 := rfl
@[simp] theorem withDecPort_prof1 (s : State) (p : DecPort) : (s.withDecPort p).prof1 = s.prof1 := rfl
@[simp] theorem withDecPort_argLo (s : State) (p : DecPort) : (s.withDecPort p).argLo = s.argLo := rfl
@[simp] theorem withDecPort_argHi (s : State) (p : DecPort) : (s.withDecPort p).argHi = s.argHi := rfl
@[simp] theorem withDecPort_result (s : State) (p : DecPort) : (s.withDecPort p).result = s.result := rfl
@[simp] theorem withDecPort_errSample (s : State) (p : DecPort) : (s.withDecPort p).errSample = s.errSample := rfl
@[simp] theorem withDecPort_errChan (s : State) (p : DecPort) : (s.withDecPort p).errChan = s.errChan := rfl
@[simp] theorem withDecPort_enc (s : State) (p : DecPort) : (s.withDecPort p).enc = s.enc := rfl
@[simp] theorem withDecPort_dec (s : State) (p : DecPort) : (s.withDecPort p).dec = p.dec := rfl
@[simp] theorem withDecPort_pred (s : State) (p : DecPort) : (s.withDecPort p).pred = s.pred := rfl
@[simp] theorem withDecPort_latch (s : State) (p : DecPort) : (s.withDecPort p).latch = s.latch := rfl
@[simp] theorem withDecPort_buf (s : State) (p : DecPort) : (s.withDecPort p).buf = p.buf := rfl
@[simp] theorem withDecPort_baseAddr (s : State) (p : DecPort) : (s.withDecPort p).baseAddr = s.baseAddr := rfl
@[simp] theorem withDecPort_rdata (s : State) (p : DecPort) : (s.withDecPort p).rdata = s.rdata := rfl
@[simp] theorem withDecPort_draws (s : State) (p : DecPort) : (s.withDecPort p).draws = s.draws := rfl
@[simp] theorem withDecPort_inputs (s : State) (p : DecPort) : (s.withDecPort p).inputs = s.inputs := rfl

/-! ## markOverrun -/

@[simp] theorem markOverrun_status (s : State) : (s.markOverrun).status = { s.status with ovr := true } := rfl
@[simp] theorem markOverrun_intEn (s : State) : (s.markOverrun).intEn = s.intEn := rfl
@[simp] theorem markOverrun_prof0 (s : State) : (s.markOverrun).prof0 = s.prof0 := rfl
@[simp] theorem markOverrun_prof1 (s : State) : (s.markOverrun).prof1 = s.prof1 := rfl
@[simp] theorem markOverrun_argLo (s : State) : (s.markOverrun).argLo = s.argLo := rfl
@[simp] theorem markOverrun_argHi (s : State) : (s.markOverrun).argHi = s.argHi := rfl
@[simp] theorem markOverrun_result (s : State) : (s.markOverrun).result = s.result := rfl
@[simp] theorem markOverrun_errSample (s : State) : (s.markOverrun).errSample = s.errSample := rfl
@[simp] theorem markOverrun_errChan (s : State) : (s.markOverrun).errChan = s.errChan := rfl
@[simp] theorem markOverrun_enc (s : State) : (s.markOverrun).enc = s.enc := rfl
@[simp] theorem markOverrun_dec (s : State) : (s.markOverrun).dec = s.dec := rfl
@[simp] theorem markOverrun_pred (s : State) : (s.markOverrun).pred = s.pred := rfl
@[simp] theorem markOverrun_latch (s : State) : (s.markOverrun).latch = s.latch := rfl
@[simp] theorem markOverrun_buf (s : State) : (s.markOverrun).buf = s.buf := rfl
@[simp] theorem markOverrun_baseAddr (s : State) : (s.markOverrun).baseAddr = s.baseAddr := rfl
@[simp] theorem markOverrun_rdata (s : State) : (s.markOverrun).rdata = s.rdata := rfl
@[simp] theorem markOverrun_draws (s : State) : (s.markOverrun).draws = s.draws := rfl
@[simp] theorem markOverrun_inputs (s : State) : (s.markOverrun).inputs = s.inputs := rfl

/-! ## returnToHost -/

@[simp] theorem returnToHost_status (s : State) (v : Word) : (s.returnToHost v).status = s.status := rfl
@[simp] theorem returnToHost_intEn (s : State) (v : Word) : (s.returnToHost v).intEn = s.intEn := rfl
@[simp] theorem returnToHost_prof0 (s : State) (v : Word) : (s.returnToHost v).prof0 = s.prof0 := rfl
@[simp] theorem returnToHost_prof1 (s : State) (v : Word) : (s.returnToHost v).prof1 = s.prof1 := rfl
@[simp] theorem returnToHost_argLo (s : State) (v : Word) : (s.returnToHost v).argLo = s.argLo := rfl
@[simp] theorem returnToHost_argHi (s : State) (v : Word) : (s.returnToHost v).argHi = s.argHi := rfl
@[simp] theorem returnToHost_result (s : State) (v : Word) : (s.returnToHost v).result = s.result := rfl
@[simp] theorem returnToHost_errSample (s : State) (v : Word) : (s.returnToHost v).errSample = s.errSample := rfl
@[simp] theorem returnToHost_errChan (s : State) (v : Word) : (s.returnToHost v).errChan = s.errChan := rfl
@[simp] theorem returnToHost_enc (s : State) (v : Word) : (s.returnToHost v).enc = s.enc := rfl
@[simp] theorem returnToHost_dec (s : State) (v : Word) : (s.returnToHost v).dec = s.dec := rfl
@[simp] theorem returnToHost_pred (s : State) (v : Word) : (s.returnToHost v).pred = s.pred := rfl
@[simp] theorem returnToHost_latch (s : State) (v : Word) : (s.returnToHost v).latch = s.latch := rfl
@[simp] theorem returnToHost_buf (s : State) (v : Word) : (s.returnToHost v).buf = s.buf := rfl
@[simp] theorem returnToHost_baseAddr (s : State) (v : Word) : (s.returnToHost v).baseAddr = s.baseAddr := rfl
@[simp] theorem returnToHost_rdata (s : State) (v : Word) : (s.returnToHost v).rdata = v := rfl
@[simp] theorem returnToHost_draws (s : State) (v : Word) : (s.returnToHost v).draws = s.draws := rfl
@[simp] theorem returnToHost_inputs (s : State) (v : Word) : (s.returnToHost v).inputs = s.inputs := rfl

/-! ## accept -/

@[simp] theorem accept_status (s : State) (w : Word) : (s.accept w).status = { s.status with busy := true, done := false, err := false, errcode := .none } := rfl
@[simp] theorem accept_intEn (s : State) (w : Word) : (s.accept w).intEn = s.intEn := rfl
@[simp] theorem accept_prof0 (s : State) (w : Word) : (s.accept w).prof0 = s.prof0 := rfl
@[simp] theorem accept_prof1 (s : State) (w : Word) : (s.accept w).prof1 = s.prof1 := rfl
@[simp] theorem accept_argLo (s : State) (w : Word) : (s.accept w).argLo = s.argLo := rfl
@[simp] theorem accept_argHi (s : State) (w : Word) : (s.accept w).argHi = s.argHi := rfl
@[simp] theorem accept_result (s : State) (w : Word) : (s.accept w).result = s.result := rfl
@[simp] theorem accept_errSample (s : State) (w : Word) : (s.accept w).errSample = s.errSample := rfl
@[simp] theorem accept_errChan (s : State) (w : Word) : (s.accept w).errChan = s.errChan := rfl
@[simp] theorem accept_enc (s : State) (w : Word) : (s.accept w).enc = s.enc := rfl
@[simp] theorem accept_dec (s : State) (w : Word) : (s.accept w).dec = s.dec := rfl
@[simp] theorem accept_pred (s : State) (w : Word) : (s.accept w).pred = s.pred := rfl
@[simp] theorem accept_latch (s : State) (w : Word) : (s.accept w).latch = w := rfl
@[simp] theorem accept_buf (s : State) (w : Word) : (s.accept w).buf = s.buf := rfl
@[simp] theorem accept_baseAddr (s : State) (w : Word) : (s.accept w).baseAddr = s.baseAddr := rfl
@[simp] theorem accept_rdata (s : State) (w : Word) : (s.accept w).rdata = s.rdata := rfl
@[simp] theorem accept_draws (s : State) (w : Word) : (s.accept w).draws = s.draws := rfl
@[simp] theorem accept_inputs (s : State) (w : Word) : (s.accept w).inputs = s.inputs := rfl

/-! ## complete -/

@[simp] theorem complete_status (s : State) : (s.complete).status = { s.status with busy := false, done := true } := rfl
@[simp] theorem complete_intEn (s : State) : (s.complete).intEn = s.intEn := rfl
@[simp] theorem complete_prof0 (s : State) : (s.complete).prof0 = s.prof0 := rfl
@[simp] theorem complete_prof1 (s : State) : (s.complete).prof1 = s.prof1 := rfl
@[simp] theorem complete_argLo (s : State) : (s.complete).argLo = s.argLo := rfl
@[simp] theorem complete_argHi (s : State) : (s.complete).argHi = s.argHi := rfl
@[simp] theorem complete_result (s : State) : (s.complete).result = s.result := rfl
@[simp] theorem complete_errSample (s : State) : (s.complete).errSample = s.errSample := rfl
@[simp] theorem complete_errChan (s : State) : (s.complete).errChan = s.errChan := rfl
@[simp] theorem complete_enc (s : State) : (s.complete).enc = s.enc := rfl
@[simp] theorem complete_dec (s : State) : (s.complete).dec = s.dec := rfl
@[simp] theorem complete_pred (s : State) : (s.complete).pred = s.pred := rfl
@[simp] theorem complete_latch (s : State) : (s.complete).latch = s.latch := rfl
@[simp] theorem complete_buf (s : State) : (s.complete).buf = s.buf := rfl
@[simp] theorem complete_baseAddr (s : State) : (s.complete).baseAddr = s.baseAddr := rfl
@[simp] theorem complete_rdata (s : State) : (s.complete).rdata = s.rdata := rfl
@[simp] theorem complete_draws (s : State) : (s.complete).draws = s.draws := rfl
@[simp] theorem complete_inputs (s : State) : (s.complete).inputs = s.inputs := rfl

/-! ## raiseError -/

@[simp] theorem raiseError_status (s : State) (e : ErrorCode) (site : Site) : (s.raiseError e site).status = { s.status with busy := false, done := true, err := true, errcode := e } := rfl
@[simp] theorem raiseError_intEn (s : State) (e : ErrorCode) (site : Site) : (s.raiseError e site).intEn = s.intEn := rfl
@[simp] theorem raiseError_prof0 (s : State) (e : ErrorCode) (site : Site) : (s.raiseError e site).prof0 = s.prof0 := rfl
@[simp] theorem raiseError_prof1 (s : State) (e : ErrorCode) (site : Site) : (s.raiseError e site).prof1 = s.prof1 := rfl
@[simp] theorem raiseError_argLo (s : State) (e : ErrorCode) (site : Site) : (s.raiseError e site).argLo = s.argLo := rfl
@[simp] theorem raiseError_argHi (s : State) (e : ErrorCode) (site : Site) : (s.raiseError e site).argHi = s.argHi := rfl
@[simp] theorem raiseError_result (s : State) (e : ErrorCode) (site : Site) : (s.raiseError e site).result = s.result := rfl
@[simp] theorem raiseError_errSample (s : State) (e : ErrorCode) (site : Site) : (s.raiseError e site).errSample = site.sample := rfl
@[simp] theorem raiseError_errChan (s : State) (e : ErrorCode) (site : Site) : (s.raiseError e site).errChan = site.chan := rfl
@[simp] theorem raiseError_enc (s : State) (e : ErrorCode) (site : Site) : (s.raiseError e site).enc = s.enc := rfl
@[simp] theorem raiseError_dec (s : State) (e : ErrorCode) (site : Site) : (s.raiseError e site).dec = s.dec := rfl
@[simp] theorem raiseError_pred (s : State) (e : ErrorCode) (site : Site) : (s.raiseError e site).pred = s.pred := rfl
@[simp] theorem raiseError_latch (s : State) (e : ErrorCode) (site : Site) : (s.raiseError e site).latch = s.latch := rfl
@[simp] theorem raiseError_buf (s : State) (e : ErrorCode) (site : Site) : (s.raiseError e site).buf = s.buf := rfl
@[simp] theorem raiseError_baseAddr (s : State) (e : ErrorCode) (site : Site) : (s.raiseError e site).baseAddr = s.baseAddr := rfl
@[simp] theorem raiseError_rdata (s : State) (e : ErrorCode) (site : Site) : (s.raiseError e site).rdata = s.rdata := rfl
@[simp] theorem raiseError_draws (s : State) (e : ErrorCode) (site : Site) : (s.raiseError e site).draws = s.draws := rfl
@[simp] theorem raiseError_inputs (s : State) (e : ErrorCode) (site : Site) : (s.raiseError e site).inputs = s.inputs := rfl

end Machine
end Sys2Proof
end

