-- ==== Sys2Proof/Laws/Ops.lean ====
section
/-! SUPPORT. What the shared operations around a command can do: how a computation becomes an outcome, what the two resets leave,
and how a step delivers its event. -/

namespace Sys2Proof
namespace Machine

/-! ## A computation as an outcome -/

/-- When a computation's outcome is a next state: it completed, or it raised an error. -/
theorem outcomeOf_eq_next {π α : Type} {put : π → State} {ok : α → State} {r : Except (Stop π) α} {t : State} :
    outcomeOf put ok r = .next t ↔
      (∃ a, r = .ok a ∧ t = (ok a).complete) ∨ (∃ e site p, r = .error (.raised e site p) ∧ t = (put p).raiseError e site) := by
  rcases r with (⟨e, site, p⟩ | a) | a <;> simp [outcomeOf, succeed, failWith, eq_comm]

/-- A computation's outcome is a fault exactly when it meets an address that does not exist. -/
theorem outcomeOf_eq_fault {π α : Type} {put : π → State} {ok : α → State} {r : Except (Stop π) α} {f : Fault} :
    outcomeOf put ok r = .fault f ↔ ∃ a, r = .error (.noByte a) ∧ f = .noSuchBufByte a := by
  rcases r with (⟨e, site, p⟩ | a) | a <;> simp [outcomeOf, succeed, failWith, eq_comm]

theorem outcomeOf_ne_refused {π α : Type} {put : π → State} {ok : α → State} {r : Except (Stop π) α} {f : Refusal} :
    outcomeOf put ok r ≠ .refused f := by
  rcases r with (⟨e, site, p⟩ | a) | a <;> simp [outcomeOf, succeed, failWith]

@[simp] theorem succeed_eq_next {s t : State} : succeed s = .next t ↔ t = s.complete := by
  simp [succeed, eq_comm]

@[simp] theorem failWith_eq_next {e : ErrorCode} {site : Site} {s t : State} :
    failWith e site s = .next t ↔ t = s.raiseError e site := by
  simp [failWith, eq_comm]

theorem orNoByte_eq_ok {π α : Type} {addr : Nat} {o : Option α} {a : α} :
    (orNoByte addr o : Except (Stop π) α) = .ok a ↔ o = some a := by
  cases o <;> simp [orNoByte]

theorem orNoByte_eq_error {π α : Type} {addr : Nat} {o : Option α} {e : Stop π} :
    (orNoByte addr o : Except (Stop π) α) = .error e ↔ o = none ∧ e = .noByte addr := by
  cases o <;> simp [orNoByte, eq_comm]

theorem liftStop_eq_ok {π ρ α : Type} {f : π → ρ} {r : Except (Stop π) α} {a : α} : liftStop f r = .ok a ↔ r = .ok a := by
  cases r <;> simp [liftStop]

/-- A lifted computation ends early exactly where the computation does, over the larger part of the state. -/
theorem liftStop_eq_error {π ρ α : Type} {f : π → ρ} {r : Except (Stop π) α} {e : Stop ρ} :
    liftStop f r = .error e ↔ ∃ e', r = .error e' ∧ e = e'.map f := by
  cases r <;> simp [liftStop, eq_comm]

theorem stop_map_eq_raised {π ρ : Type} {f : π → ρ} {st : Stop π} {e : ErrorCode} {site : Site} {q : ρ} :
    st.map f = .raised e site q ↔ ∃ p, st = .raised e site p ∧ q = f p := by
  cases st <;> simp [Stop.map, and_assoc, eq_comm]

theorem stop_map_eq_noByte {π ρ : Type} {f : π → ρ} {st : Stop π} {a : Nat} : st.map f = .noByte a ↔ st = .noByte a := by
  cases st <;> simp [Stop.map]

/-! ## Sequencing, as a case analysis -/

theorem bind_eq_ok {ε α β : Type} {x : Except ε α} {f : α → Except ε β} {b : β} :
    x.bind f = .ok b ↔ ∃ a, x = .ok a ∧ f a = .ok b := by
  cases x <;> simp [Except.bind]

theorem bind_eq_error {ε α β : Type} {x : Except ε α} {f : α → Except ε β} {e : ε} :
    x.bind f = .error e ↔ x = .error e ∨ ∃ a, x = .ok a ∧ f a = .error e := by
  cases x <;> simp [Except.bind]

theorem map_eq_ok {ε α β : Type} {x : Except ε α} {f : α → β} {b : β} : x.map f = .ok b ↔ ∃ a, x = .ok a ∧ b = f a := by
  cases x <;> simp [Except.map, eq_comm]

theorem map_eq_error {ε α β : Type} {x : Except ε α} {f : α → β} {e : ε} : x.map f = .error e ↔ x = .error e := by
  cases x <;> simp [Except.map]

/-! ## The two resets -/

@[simp] theorem resetInput_status (s : State) : s.resetInput.status = Status.reset := rfl
@[simp] theorem resetInput_intEn (s : State) : s.resetInput.intEn = ⟨false, false⟩ := rfl
@[simp] theorem resetInput_enc (s : State) : s.resetInput.enc = Encoder.reset := rfl
@[simp] theorem resetInput_dec (s : State) : s.resetInput.dec = Decoder.reset := rfl
@[simp] theorem resetInput_pred (s : State) : s.resetInput.pred = Predictor.start := rfl
@[simp] theorem resetInput_buf (s : State) : s.resetInput.buf = ⟨s.buf.size, [], s.buf.resets + 1⟩ := rfl
@[simp] theorem resetInput_baseAddr (s : State) : s.resetInput.baseAddr = s.baseAddr := rfl
@[simp] theorem resetInput_inputs (s : State) : s.resetInput.inputs = s.inputs := rfl
@[simp] theorem resetInput_draws (s : State) : s.resetInput.draws = s.draws := rfl
@[simp] theorem resetInput_rdata (s : State) : s.resetInput.rdata = s.rdata := rfl

@[simp] theorem softReset_status (s : State) : s.softReset.status = { s.status with ovr := false } := rfl
@[simp] theorem softReset_intEn (s : State) : s.softReset.intEn = ⟨false, false⟩ := rfl
@[simp] theorem softReset_result (s : State) : s.softReset.result = Quad.all 0#32 := rfl
@[simp] theorem softReset_enc (s : State) : s.softReset.enc = Encoder.reset := rfl
@[simp] theorem softReset_dec (s : State) : s.softReset.dec = Decoder.reset := rfl
@[simp] theorem softReset_pred (s : State) : s.softReset.pred = Predictor.start := rfl
@[simp] theorem softReset_latch (s : State) : s.softReset.latch = s.latch := rfl
@[simp] theorem softReset_buf (s : State) : s.softReset.buf = s.buf := rfl
@[simp] theorem softReset_baseAddr (s : State) : s.softReset.baseAddr = s.baseAddr := rfl
@[simp] theorem softReset_inputs (s : State) : s.softReset.inputs = s.inputs := rfl
@[simp] theorem softReset_draws (s : State) : s.softReset.draws = s.draws := rfl
@[simp] theorem softReset_rdata (s : State) : s.softReset.rdata = s.rdata := rfl

/-! ## The step -/

theorem step_nil {s : State} (h : s.inputs = []) : step s = engineMove s := by
  simp [step, advance, h]

theorem step_cons {s : State} {i : Input} {rest : List Input} (h : s.inputs = i :: rest) :
    step s = deliver i (s.withInputs rest) := by
  simp [step, advance, h]

theorem engineMove_idle {s : State} (h : s.status.busy = false) : engineMove s = .next s := by
  simp [engineMove, h]

theorem engineMove_busy {s : State} (h : s.status.busy = true) : engineMove s = runLatched s := by
  simp [engineMove, h]

theorem runLatched_ok {s : State} {i : Instr} (h : decode s.latch = .ok i) : runLatched s = exec i s := by
  simp [runLatched, h]

theorem runLatched_error {s : State} {e : Illegal} (h : decode s.latch = .error e) :
    runLatched s = .next (s.raiseError .illegalCommand .na) := by
  simp [runLatched, h, failWith]

end Machine
end Sys2Proof
end

