-- ==== Sys2Proof/Laws/Rom.lean ====
section
/-! SUPPORT. The listing of the ROM is the result of the spec's integer construction (20_memory.md R96, R97), and the laws of the
table lookups that the variance model rests on. -/

namespace Sys2Proof
namespace Machine

/-! ## The construction of R96 -/

/-- The listing of R98 is the construction of R96 for every table. -/
theorem romEntries_eq_construction : ∀ b : Bucket, romEntries b = romConstruction b := by
  decide +kernel

/-- The sums of the weights are those that R97 lists. -/
theorem romSums_eq : romRatios.map (fun r => (romBothSides r).sum) = romSums := by
  decide +kernel

/-! ## Lookups -/

theorem romEntries_length : ∀ b : Bucket, (romEntries b).length = 257 := by
  decide +kernel

/-- The rows of R98 laid end to end are the entries by index. -/
theorem range_map_rom : ∀ b : Bucket, (List.range 257).map (rom b) = romEntries b := by
  decide +kernel

theorem romEntries_get (b : Bucket) {j : Nat} (h : j < (romEntries b).length) : (romEntries b)[j] = rom b j := by
  simp [← range_map_rom b]

/-- Every entry of a list is below the one after it. -/
def risesFrom (v : Nat) : List Nat → Bool
  | [] => true
  | w :: rest => decide (v < w) && risesFrom w rest

theorem romEntries_risesFrom : ∀ b : Bucket, risesFrom 0 ((romEntries b).drop 1) = true := by
  decide +kernel

theorem romEntries_take_one : ∀ b : Bucket, (romEntries b).take 1 = [0] := by
  decide +kernel

theorem lt_of_risesFrom {v : Nat} {l : List Nat} (h : risesFrom v l = true) : ∀ w ∈ l, v < w := by
  induction l generalizing v with
  | nil => simp
  | cons x rest ih =>
    simp only [risesFrom, Bool.and_eq_true, decide_eq_true_eq] at h
    rintro w (_ | ⟨_, hw⟩)
    · exact h.1
    · exact h.1.trans (ih h.2 w hw)

theorem pairwise_of_risesFrom {v : Nat} {l : List Nat} (h : risesFrom v l = true) : (v :: l).Pairwise (· < ·) := by
  induction l generalizing v with
  | nil => simp
  | cons x rest ih =>
    refine List.pairwise_cons.2 ⟨lt_of_risesFrom h, ih ?_⟩
    simp only [risesFrom, Bool.and_eq_true] at h
    exact h.2

/-- Each table rises from entry to entry. -/
theorem romEntries_rising (b : Bucket) : (romEntries b).Pairwise (· < ·) := by
  rw [← List.take_append_drop 1 (romEntries b), romEntries_take_one b]
  exact pairwise_of_risesFrom (romEntries_risesFrom b)

/-- `cdf_fn` inside its table (R201). -/
theorem cdfFn_of_mem {x : Int} (b : Bucket) (h1 : -128 ≤ x) (h2 : x ≤ 128) : cdfFn x b = rom b (x + 128).toNat := by
  unfold cdfFn
  split
  · rename_i h
    have h0 : ∀ b : Bucket, rom b 0 = 0 := by decide +kernel
    rw [show x = -128 by omega]
    exact (h0 b).symm
  · simp

/-- What the count of entries up to y is, in a rising list: the entries before it are at most y, those from it on above y. -/
theorem countUpTo_spec {l : List Nat} (h : l.Pairwise (· < ·)) (y : Nat) :
    countUpTo y l ≤ l.length ∧ (∀ j (hj : j < l.length), j < countUpTo y l ↔ l[j] ≤ y) := by
  induction l with
  | nil => simp [countUpTo]
  | cons v rest ih =>
    obtain ⟨hv, hr⟩ := List.pairwise_cons.1 h
    obtain ⟨ih1, ih2⟩ := ih hr
    unfold countUpTo
    split
    · rename_i hvy
      refine ⟨by simpa using ih1, ?_⟩
      rintro (_ | j) hj
      · simpa using hvy
      · simpa using ih2 j (by simpa using hj)
    · rename_i hvy
      refine ⟨by simp, ?_⟩
      rintro (_ | j) hj
      · simpa using hvy
      · have hj' : j < rest.length := by simpa using hj
        have := hv rest[j] (List.getElem_mem hj')
        simp only [List.getElem_cons_succ, Nat.not_lt_zero, false_iff]
        omega

end Machine
end Sys2Proof
end

