-- ==== Sys2Proof/Laws/RangeCoder.lean ====
section
/-! SUPPORT. What the range coder's functions can do: for each, everything it leaves when it completes, when it raises an error,
and when it meets an address that does not exist. -/

namespace Sys2Proof
namespace Machine

theorem u32_add_one {x : Word} (h : u32 x + 1 < 2 ^ 32) : u32 (x + 1#32) = u32 x + 1 := by
  simp only [u32] at h ⊢
  rw [BitVec.toNat_add]
  simp only [BitVec.toNat_ofNat]
  omega

theorem u32_sub_one {x : Word} (h : 1 ≤ u32 x) : u32 (x - 1#32) = u32 x - 1 := by
  simp only [u32] at h ⊢
  have := x.isLt
  rw [BitVec.toNat_sub]
  simp only [BitVec.toNat_ofNat]
  omega

theorem u32_ofNat {n : Nat} (h : n < 2 ^ 32) : u32 (BitVec.ofNat 32 n) = n := by
  simp only [u32, BitVec.toNat_ofNat]
  omega

theorem u32_lt (x : Word) : u32 x < 2 ^ 32 := x.isLt

/-! ## What an encoder function keeps -/

/-- From p to q the encoder only wrote the bytes from p's OUT_PTR up to q's OUT_PTR, below OUT_END (R303). -/
structure EncGrows (p q : EncPort) : Prop where
  base : q.enc.outBase = p.enc.outBase
  stop : q.enc.outEnd = p.enc.outEnd
  size : q.buf.size = p.buf.size
  resets : q.buf.resets = p.buf.resets
  ptr : u32 p.enc.outPtr ≤ u32 q.enc.outPtr
  bound : u32 q.enc.outPtr = u32 p.enc.outPtr ∨ u32 q.enc.outPtr ≤ u32 p.enc.outEnd
  outside : ∀ b, b < u32 p.enc.outPtr ∨ u32 q.enc.outPtr ≤ b → q.buf.byte b = p.buf.byte b
  wf : p.buf.wf = true → q.buf.wf = true

/-- How an encoder function stops: OUTPUT_EXHAUSTED at its site with ENC_STATE = FAILED (R282), or at an address that does not
exist, which needs an OUT_END beyond BUF. -/
def EncStops (site : Site) (p : EncPort) : Stop EncPort → Prop
  | .raised e s q => e = .outputExhausted ∧ s = site ∧ q.enc.state = .failed ∧ EncGrows p q
  | .noByte _ => p.buf.size < u32 p.enc.outEnd

theorem encGrows_refl (p : EncPort) : EncGrows p p :=
  ⟨rfl, rfl, rfl, rfl, Nat.le_refl _, .inl rfl, fun _ _ => rfl, id⟩

theorem encGrows_trans {p q r : EncPort} (h : EncGrows p q) (k : EncGrows q r) : EncGrows p r where
  base := k.base.trans h.base
  stop := k.stop.trans h.stop
  size := k.size.trans h.size
  resets := k.resets.trans h.resets
  ptr := h.ptr.trans k.ptr
  bound := by
    have h1 := h.bound
    have h2 := k.bound
    rw [h.stop] at h2
    omega
  outside b hb := by
    have h1 := h.ptr
    have h2 := k.ptr
    rw [k.outside b (by omega), h.outside b (by omega)]
  wf := k.wf ∘ h.wf

/-- Encoder registers other than the pointers may change without writing a byte. -/
theorem encGrows_of_regs {p : EncPort} {e : Encoder} (hb : e.outBase = p.enc.outBase) (hp : e.outPtr = p.enc.outPtr)
    (he : e.outEnd = p.enc.outEnd) : EncGrows p { p with enc := e } :=
  ⟨hb, he, rfl, rfl, by simp [hp], .inl (by simp [hp]), fun _ _ => rfl, id⟩

theorem encStops_of_grows {site : Site} {p q : EncPort} {e : Stop EncPort} (h : EncGrows p q) (k : EncStops site q e) :
    EncStops site p e := by
  cases e with
  | raised e s r => exact ⟨k.1, k.2.1, k.2.2.1, encGrows_trans h k.2.2.2⟩
  | noByte a =>
    simp only [EncStops] at k ⊢
    rw [h.size, h.stop] at k
    exact k

/-! ## putByte (R274) -/

theorem putByte_eq_ok {site : Site} {v : Byte} {p q : EncPort} (h : putByte site v p = .ok q) :
    u32 p.enc.outPtr < u32 p.enc.outEnd ∧ q.enc = { p.enc with outPtr := p.enc.outPtr + 1#32 } ∧
      p.buf.store (u32 p.enc.outPtr) v = some q.buf := by
  unfold putByte at h
  split at h
  · cases h
  · obtain ⟨m, hm, rfl⟩ := map_eq_ok.1 h
    exact ⟨by omega, rfl, orNoByte_eq_ok.1 hm⟩

theorem putByte_eq_error {site : Site} {v : Byte} {p : EncPort} {e : Stop EncPort} (h : putByte site v p = .error e) :
    (u32 p.enc.outEnd ≤ u32 p.enc.outPtr ∧ e = .raised .outputExhausted site { p with enc := { p.enc with state := .failed } }) ∨
      (p.buf.size ≤ u32 p.enc.outPtr ∧ u32 p.enc.outPtr < u32 p.enc.outEnd ∧ e = .noByte (u32 p.enc.outPtr)) := by
  unfold putByte at h
  split at h
  · cases h
    exact .inl ⟨by omega, rfl⟩
  · obtain ⟨h1, rfl⟩ := orNoByte_eq_error.1 (map_eq_error.1 h)
    refine .inr ⟨?_, by omega, rfl⟩
    by_contra hc
    rw [store_of_lt v (by omega)] at h1
    cases h1

/-- putByte completes while OUT_PTR is below OUT_END and inside BUF. -/
theorem putByte_of_lt {site : Site} {v : Byte} {p : EncPort} (h1 : u32 p.enc.outPtr < u32 p.enc.outEnd)
    (h2 : u32 p.enc.outEnd ≤ p.buf.size) : ∃ q, putByte site v p = .ok q := by
  cases h : putByte site v p with
  | ok q => exact ⟨q, rfl⟩
  | error e => rcases putByte_eq_error h with h | h <;> omega

theorem putByte_grows {site : Site} {v : Byte} {p q : EncPort} (h : putByte site v p = .ok q) : EncGrows p q := by
  obtain ⟨hlt, he, hs⟩ := putByte_eq_ok h
  have hb := u32_lt p.enc.outEnd
  have hp : u32 (p.enc.outPtr + 1#32) = u32 p.enc.outPtr + 1 := u32_add_one (by omega)
  exact
    { base := by rw [he]
      stop := by rw [he]
      size := store_size hs
      resets := store_resets hs
      ptr := by rw [he]; simp only; omega
      bound := .inr (by rw [he]; simp only; omega)
      outside := fun b hb => store_byte_ne hs (by rw [he] at hb; simp only at hb; omega)
      wf := store_wf hs }

theorem putByte_stops {site : Site} {v : Byte} {p : EncPort} {e : Stop EncPort} (h : putByte site v p = .error e) :
    EncStops site p e := by
  rcases putByte_eq_error h with ⟨_, rfl⟩ | ⟨h1, h2, rfl⟩
  · exact ⟨rfl, rfl, rfl, encGrows_of_regs rfl rfl rfl⟩
  · simp only [EncStops]
    omega

/-! ## shiftLow (R275) -/

theorem countDown_grows (p : EncPort) : EncGrows p p.countDown := encGrows_of_regs rfl rfl rfl

theorem putHeld_grows {site : Site} {carry temp : Byte} {n : Nat} {p q : EncPort} (h : putHeld site carry n temp p = .ok q) :
    EncGrows p q := by
  induction n generalizing p temp with
  | zero =>
    obtain ⟨p1, h1, rfl⟩ := map_eq_ok.1 h
    exact encGrows_trans (putByte_grows h1) (countDown_grows p1)
  | succ n ih =>
    obtain ⟨p1, h1, h2⟩ := bind_eq_ok.1 h
    exact encGrows_trans (encGrows_trans (putByte_grows h1) (countDown_grows p1)) (ih h2)

theorem putHeld_stops {site : Site} {carry temp : Byte} {n : Nat} {p : EncPort} {e : Stop EncPort}
    (h : putHeld site carry n temp p = .error e) : EncStops site p e := by
  induction n generalizing p temp with
  | zero => exact putByte_stops (map_eq_error.1 h)
  | succ n ih =>
    rcases bind_eq_error.1 h with h | ⟨p1, h1, h2⟩
    · exact putByte_stops h
    · exact encStops_of_grows (encGrows_trans (putByte_grows h1) (countDown_grows p1)) (ih h2)

/-- What the loop of shiftLow leaves in the registers: OUT_PTR and ENC_CSIZE count the bytes written, and nothing else changes. -/
theorem putHeld_regs {site : Site} {carry temp : Byte} {n : Nat} {p q : EncPort} (h : putHeld site carry n temp p = .ok q) :
    q.enc = { p.enc with outPtr := p.enc.outPtr + BitVec.ofNat 32 (n + 1), csize := p.enc.csize - BitVec.ofNat 32 (n + 1) } ∧
      u32 q.enc.outPtr = u32 p.enc.outPtr + (n + 1) := by
  induction n generalizing p temp with
  | zero =>
    obtain ⟨p1, h1, rfl⟩ := map_eq_ok.1 h
    obtain ⟨hlt, he, _⟩ := putByte_eq_ok h1
    have := u32_lt p.enc.outEnd
    simp only [EncPort.countDown, he]
    exact ⟨trivial, u32_add_one (by omega)⟩
  | succ n ih =>
    obtain ⟨p1, h1, h2⟩ := bind_eq_ok.1 h
    obtain ⟨hlt, he, _⟩ := putByte_eq_ok h1
    obtain ⟨hq, hp⟩ := ih h2
    have := u32_lt p.enc.outEnd
    have h1' : u32 (p.enc.outPtr + 1#32) = u32 p.enc.outPtr + 1 := u32_add_one (by omega)
    refine ⟨?_, ?_⟩
    · rw [hq]
      simp only [EncPort.countDown, he]
      congr 1
      · apply BitVec.eq_of_toNat_eq
        simp only [BitVec.toNat_sub, BitVec.toNat_ofNat]
        omega
      · rw [BitVec.add_assoc]
        congr 1
        simp [BitVec.ofNat_add, BitVec.add_comm]
    · rw [hp]
      simp only [EncPort.countDown, he, h1']
      omega

/-- The bytes that the loop of shiftLow writes: the first is temp + carry, the others 0xFF + carry. -/
theorem putHeld_bytes {site : Site} {carry temp : Byte} {n : Nat} {p q : EncPort} (h : putHeld site carry n temp p = .ok q) :
    q.buf.byte (u32 p.enc.outPtr) = temp + carry ∧
      ∀ k, 1 ≤ k → k ≤ n → q.buf.byte (u32 p.enc.outPtr + k) = 0xFF#8 + carry := by
  induction n generalizing p temp with
  | zero =>
    obtain ⟨p1, h1, rfl⟩ := map_eq_ok.1 h
    obtain ⟨_, _, hs⟩ := putByte_eq_ok h1
    exact ⟨store_byte_same hs, by omega⟩
  | succ n ih =>
    obtain ⟨p1, h1, h2⟩ := bind_eq_ok.1 h
    obtain ⟨hlt, he, hs⟩ := putByte_eq_ok h1
    have := u32_lt p.enc.outEnd
    have h1' : u32 (p.enc.outPtr + 1#32) = u32 p.enc.outPtr + 1 := u32_add_one (by omega)
    obtain ⟨i1, i2⟩ := ih h2
    have hg := (putHeld_grows h2).outside
    simp only [EncPort.countDown, he, h1'] at i1 i2 hg
    refine ⟨?_, fun k hk1 hk2 => ?_⟩
    · rw [hg _ (.inl (by omega)), store_byte_same hs]
    · rcases Nat.lt_or_eq_of_le hk1 with hk | rfl
      · have := i2 (k - 1) (by omega) (by omega)
        rwa [show u32 p.enc.outPtr + 1 + (k - 1) = u32 p.enc.outPtr + k by omega] at this
      · exact i1

/-- The loop of shiftLow completes while its bytes fit. -/
theorem putHeld_of_le {site : Site} {carry temp : Byte} {n : Nat} {p : EncPort} (h1 : u32 p.enc.outPtr + n < u32 p.enc.outEnd)
    (h2 : u32 p.enc.outEnd ≤ p.buf.size) : ∃ q, putHeld site carry n temp p = .ok q := by
  cases h : putHeld site carry n temp p with
  | ok q => exact ⟨q, rfl⟩
  | error e =>
    exfalso
    induction n generalizing p temp with
    | zero =>
      obtain ⟨q, hq⟩ := putByte_of_lt (site := site) (v := temp + carry) (by omega) h2
      have := map_eq_error.1 h
      rw [hq] at this
      cases this
    | succ n ih =>
      rcases bind_eq_error.1 h with h | ⟨p1, hp, hq⟩
      · obtain ⟨q, hq⟩ := putByte_of_lt (site := site) (v := temp + carry) (p := p) (by omega) h2
        rw [hq] at h
        cases h
      · obtain ⟨hlt, he, hs⟩ := putByte_eq_ok hp
        have := u32_lt p.enc.outEnd
        have h1' : u32 (p.enc.outPtr + 1#32) = u32 p.enc.outPtr + 1 := u32_add_one (by omega)
        refine ih (p := p1.countDown) ?_ ?_ hq
        · simp only [EncPort.countDown, he, h1']
          omega
        · simp only [EncPort.countDown, he]
          rw [store_size hs]
          exact h2

theorem releaseHeld_grows {site : Site} {p q : EncPort} (h : releaseHeld site p = .ok q) : EncGrows p q := by
  obtain ⟨p1, h1, rfl⟩ := map_eq_ok.1 h
  exact encGrows_trans (putHeld_grows h1) (encGrows_of_regs rfl rfl rfl)

theorem releaseHeld_stops {site : Site} {p : EncPort} {e : Stop EncPort} (h : releaseHeld site p = .error e) :
    EncStops site p e := putHeld_stops (map_eq_error.1 h)

theorem holdTop_grows {site : Site} {p q : EncPort} (h : holdTop site p = .ok q) : EncGrows p q := by
  unfold holdTop at h
  split at h <;> cases h
  exact encGrows_of_regs rfl rfl rfl

theorem holdTop_stops {site : Site} {p : EncPort} {e : Stop EncPort} (h : holdTop site p = .error e) : EncStops site p e := by
  unfold holdTop at h
  split at h <;> cases h
  exact ⟨rfl, rfl, rfl, encGrows_of_regs rfl rfl rfl⟩

theorem shiftLow_grows {site : Site} {p q : EncPort} (h : shiftLow site p = .ok q) : EncGrows p q := by
  unfold shiftLow at h
  split at h
  · obtain ⟨p1, h1, h2⟩ := bind_eq_ok.1 h
    exact encGrows_trans (releaseHeld_grows h1) (holdTop_grows h2)
  · exact holdTop_grows h

theorem shiftLow_stops {site : Site} {p : EncPort} {e : Stop EncPort} (h : shiftLow site p = .error e) : EncStops site p e := by
  unfold shiftLow at h
  split at h
  · rcases bind_eq_error.1 h with h | ⟨p1, h1, h2⟩
    · exact releaseHeld_stops h
    · exact encStops_of_grows (releaseHeld_grows h1) (holdTop_stops h2)
  · exact holdTop_stops h

/-! ## encode_fn and flush_fn (R276, R280) -/

theorem encRenorm_grows {site : Site} {n : Nat} {p q : EncPort} (h : encRenorm site n p = .ok q) : EncGrows p q := by
  induction n generalizing p with
  | zero => cases h; exact encGrows_refl _
  | succ n ih =>
    unfold encRenorm at h
    split at h
    · have hr : EncGrows p { p with enc := { p.enc with range := p.enc.range <<< 8 } } := encGrows_of_regs rfl rfl rfl
      obtain ⟨p1, h1, h2⟩ := bind_eq_ok.1 h
      exact encGrows_trans (encGrows_trans hr (shiftLow_grows h1)) (ih h2)
    · cases h; exact encGrows_refl _

theorem encRenorm_stops {site : Site} {n : Nat} {p : EncPort} {e : Stop EncPort} (h : encRenorm site n p = .error e) :
    EncStops site p e := by
  induction n generalizing p with
  | zero => cases h
  | succ n ih =>
    unfold encRenorm at h
    split at h
    · have hr : EncGrows p { p with enc := { p.enc with range := p.enc.range <<< 8 } } := encGrows_of_regs rfl rfl rfl
      rcases bind_eq_error.1 h with h | ⟨p1, h1, h2⟩
      · exact encStops_of_grows hr (shiftLow_stops h)
      · exact encStops_of_grows (encGrows_trans hr (shiftLow_grows h1)) (ih h2)
    · cases h

/-- encode_fn, when it completes, only wrote the bytes up to the new OUT_PTR. -/
theorem encodeFn_grows {site : Site} {cum fr : Nat} {p q : EncPort} (h : encodeFn site cum fr p = .ok q) : EncGrows p q :=
  encGrows_trans (encGrows_of_regs rfl rfl rfl : EncGrows p (encNarrow cum fr p)) (encRenorm_grows h)

/-- encode_fn, when it stops, raised OUTPUT_EXHAUSTED at its site. -/
theorem encodeFn_stops {site : Site} {cum fr : Nat} {p : EncPort} {e : Stop EncPort} (h : encodeFn site cum fr p = .error e) :
    EncStops site p e :=
  encStops_of_grows (encGrows_of_regs rfl rfl rfl : EncGrows p (encNarrow cum fr p)) (encRenorm_stops h)

theorem flushFn_eq_ok {site : Site} {p q : EncPort} (h : flushFn site p = .ok q) :
    ∃ p1 p2 p3 p4, shiftLow site p = .ok p1 ∧ shiftLow site p1 = .ok p2 ∧ shiftLow site p2 = .ok p3 ∧ shiftLow site p3 = .ok p4 ∧
      shiftLow site p4 = .ok q := by
  obtain ⟨p4, h4, h5⟩ := bind_eq_ok.1 h
  obtain ⟨p3, h3, h4⟩ := bind_eq_ok.1 h4
  obtain ⟨p2, h2, h3⟩ := bind_eq_ok.1 h3
  obtain ⟨p1, h1, h2⟩ := bind_eq_ok.1 h2
  exact ⟨p1, p2, p3, p4, h1, h2, h3, h4, h5⟩

theorem flushFn_grows {site : Site} {p q : EncPort} (h : flushFn site p = .ok q) : EncGrows p q := by
  obtain ⟨p1, p2, p3, p4, h1, h2, h3, h4, h5⟩ := flushFn_eq_ok h
  exact encGrows_trans (shiftLow_grows h1) (encGrows_trans (shiftLow_grows h2)
    (encGrows_trans (shiftLow_grows h3) (encGrows_trans (shiftLow_grows h4) (shiftLow_grows h5))))

theorem flushFn_stops {site : Site} {p : EncPort} {e : Stop EncPort} (h : flushFn site p = .error e) : EncStops site p e := by
  rcases bind_eq_error.1 h with h | ⟨p4, h4, h5⟩
  · rcases bind_eq_error.1 h with h | ⟨p3, h3, h4⟩
    · rcases bind_eq_error.1 h with h | ⟨p2, h2, h3⟩
      · rcases bind_eq_error.1 h with h | ⟨p1, h1, h2⟩
        · exact shiftLow_stops h
        · exact encStops_of_grows (shiftLow_grows h1) (shiftLow_stops h2)
      · obtain ⟨p1, h1, h2⟩ := bind_eq_ok.1 h2
        exact encStops_of_grows (encGrows_trans (shiftLow_grows h1) (shiftLow_grows h2)) (shiftLow_stops h3)
    · obtain ⟨p2, h2, h3⟩ := bind_eq_ok.1 h3
      obtain ⟨p1, h1, h2⟩ := bind_eq_ok.1 h2
      exact encStops_of_grows (encGrows_trans (encGrows_trans (shiftLow_grows h1) (shiftLow_grows h2)) (shiftLow_grows h3))
        (shiftLow_stops h4)
  · obtain ⟨p3, h3, h4⟩ := bind_eq_ok.1 h4
    obtain ⟨p2, h2, h3⟩ := bind_eq_ok.1 h3
    obtain ⟨p1, h1, h2⟩ := bind_eq_ok.1 h2
    exact encStops_of_grows (encGrows_trans (encGrows_trans (encGrows_trans (shiftLow_grows h1) (shiftLow_grows h2))
      (shiftLow_grows h3)) (shiftLow_grows h4)) (shiftLow_stops h5)

/-! ## What a decoder function keeps -/

/-- From d to e the decoder only read the bytes from d's IN_PTR up to e's IN_PTR, below IN_END (R303). -/
structure DecReads (d e : Decoder) : Prop where
  base : e.inBase = d.inBase
  stop : e.inEnd = d.inEnd
  ptr : u32 d.inPtr ≤ u32 e.inPtr
  bound : u32 e.inPtr = u32 d.inPtr ∨ u32 e.inPtr ≤ u32 d.inEnd

/-- How a decoder function stops: INPUT_EXHAUSTED at its site with DEC_STATE = FAILED and no byte left (R298), or at an address
that does not exist, which needs an IN_END beyond BUF. -/
def DecStops (site : Site) (m : Buf) (d : Decoder) : Stop Decoder → Prop
  | .raised e s q => e = .inputExhausted ∧ s = site ∧ q.state = .failed ∧ DecReads d q ∧ u32 d.inEnd ≤ u32 q.inPtr
  | .noByte _ => m.size < u32 d.inEnd

theorem decReads_refl (d : Decoder) : DecReads d d := ⟨rfl, rfl, Nat.le_refl _, .inl rfl⟩

theorem decReads_trans {d e f : Decoder} (h : DecReads d e) (k : DecReads e f) : DecReads d f where
  base := k.base.trans h.base
  stop := k.stop.trans h.stop
  ptr := h.ptr.trans k.ptr
  bound := by
    have h1 := h.bound
    have h2 := k.bound
    rw [h.stop] at h2
    omega

theorem decReads_of_regs {d e : Decoder} (hb : e.inBase = d.inBase) (hp : e.inPtr = d.inPtr) (he : e.inEnd = d.inEnd) :
    DecReads d e := ⟨hb, he, by simp [hp], .inl (by simp [hp])⟩

theorem decStops_of_reads {site : Site} {m : Buf} {d e : Decoder} {x : Stop Decoder} (h : DecReads d e)
    (k : DecStops site m e x) : DecStops site m d x := by
  cases x with
  | raised c s q => exact ⟨k.1, k.2.1, k.2.2.1, decReads_trans h k.2.2.2.1, by have := k.2.2.2.2; rwa [h.stop] at this⟩
  | noByte a =>
    simp only [DecStops] at k ⊢
    rw [h.stop] at k
    exact k

/-! ## getByte into DEC_CODE (R290) -/

theorem takeByte_eq_ok {site : Site} {m : Buf} {d e : Decoder} (h : takeByte site m d = .ok e) :
    u32 d.inPtr < u32 d.inEnd ∧ u32 d.inPtr < m.size ∧
      e = { d with inPtr := d.inPtr + 1#32, code := BitVec.ofNat 32 (u32 d.code * 2 ^ 8 + (m.byte (u32 d.inPtr)).toNat) } := by
  unfold takeByte at h
  split at h
  · cases h
  · obtain ⟨v, hv, rfl⟩ := map_eq_ok.1 h
    obtain ⟨h1, rfl⟩ := load_eq_some (orNoByte_eq_ok.1 hv)
    exact ⟨by omega, h1, rfl⟩

theorem takeByte_eq_error {site : Site} {m : Buf} {d : Decoder} {x : Stop Decoder} (h : takeByte site m d = .error x) :
    (u32 d.inEnd ≤ u32 d.inPtr ∧ x = .raised .inputExhausted site { d with state := .failed }) ∨
      (m.size ≤ u32 d.inPtr ∧ u32 d.inPtr < u32 d.inEnd ∧ x = .noByte (u32 d.inPtr)) := by
  unfold takeByte at h
  split at h
  · cases h
    exact .inl ⟨by omega, rfl⟩
  · obtain ⟨h1, rfl⟩ := orNoByte_eq_error.1 (map_eq_error.1 h)
    refine .inr ⟨?_, by omega, rfl⟩
    by_contra hc
    rw [load_of_lt (by omega)] at h1
    cases h1

theorem takeByte_of_lt {site : Site} {m : Buf} {d : Decoder} (h1 : u32 d.inPtr < u32 d.inEnd) (h2 : u32 d.inEnd ≤ m.size) :
    ∃ e, takeByte site m d = .ok e := by
  cases h : takeByte site m d with
  | ok e => exact ⟨e, rfl⟩
  | error x => rcases takeByte_eq_error h with h | h <;> omega

theorem takeByte_reads {site : Site} {m : Buf} {d e : Decoder} (h : takeByte site m d = .ok e) : DecReads d e := by
  obtain ⟨h1, h2, rfl⟩ := takeByte_eq_ok h
  have := u32_lt d.inEnd
  have hp : u32 (d.inPtr + 1#32) = u32 d.inPtr + 1 := u32_add_one (by omega)
  exact ⟨rfl, rfl, by simp only; omega, .inr (by simp only; omega)⟩

theorem takeByte_stops {site : Site} {m : Buf} {d : Decoder} {x : Stop Decoder} (h : takeByte site m d = .error x) :
    DecStops site m d x := by
  rcases takeByte_eq_error h with ⟨h1, rfl⟩ | ⟨h1, h2, rfl⟩
  · exact ⟨rfl, rfl, rfl, decReads_of_regs rfl rfl rfl, h1⟩
  · simp only [DecStops]
    omega

/-! ## dec_init_fn and consume_fn (R291, R295) -/

theorem decInitFn_reads {site : Site} {m : Buf} {d e : Decoder} (h : decInitFn site m d = .ok e) : DecReads d e := by
  obtain ⟨d4, h4, h5⟩ := bind_eq_ok.1 h
  obtain ⟨d3, h3, h4⟩ := bind_eq_ok.1 h4
  obtain ⟨d2, h2, h3⟩ := bind_eq_ok.1 h3
  obtain ⟨d1, h1, h2⟩ := bind_eq_ok.1 h2
  have h0 : DecReads d { d with code := 0#32, range := 0xFFFFFFFF#32 } := decReads_of_regs rfl rfl rfl
  exact decReads_trans h0 (decReads_trans (takeByte_reads h1) (decReads_trans (takeByte_reads h2)
    (decReads_trans (takeByte_reads h3) (decReads_trans (takeByte_reads h4) (takeByte_reads h5)))))

theorem decInitFn_stops {site : Site} {m : Buf} {d : Decoder} {x : Stop Decoder} (h : decInitFn site m d = .error x) :
    DecStops site m d x := by
  have h0 : DecReads d { d with code := 0#32, range := 0xFFFFFFFF#32 } := decReads_of_regs rfl rfl rfl
  refine decStops_of_reads h0 ?_
  rcases bind_eq_error.1 h with h | ⟨d4, h4, h5⟩
  · rcases bind_eq_error.1 h with h | ⟨d3, h3, h4⟩
    · rcases bind_eq_error.1 h with h | ⟨d2, h2, h3⟩
      · rcases bind_eq_error.1 h with h | ⟨d1, h1, h2⟩
        · exact takeByte_stops h
        · exact decStops_of_reads (takeByte_reads h1) (takeByte_stops h2)
      · obtain ⟨d1, h1, h2⟩ := bind_eq_ok.1 h2
        exact decStops_of_reads (decReads_trans (takeByte_reads h1) (takeByte_reads h2)) (takeByte_stops h3)
    · obtain ⟨d2, h2, h3⟩ := bind_eq_ok.1 h3
      obtain ⟨d1, h1, h2⟩ := bind_eq_ok.1 h2
      exact decStops_of_reads (decReads_trans (decReads_trans (takeByte_reads h1) (takeByte_reads h2)) (takeByte_reads h3))
        (takeByte_stops h4)
  · obtain ⟨d3, h3, h4⟩ := bind_eq_ok.1 h4
    obtain ⟨d2, h2, h3⟩ := bind_eq_ok.1 h3
    obtain ⟨d1, h1, h2⟩ := bind_eq_ok.1 h2
    exact decStops_of_reads (decReads_trans (decReads_trans (decReads_trans (takeByte_reads h1) (takeByte_reads h2))
      (takeByte_reads h3)) (takeByte_reads h4)) (takeByte_stops h5)

theorem decRenorm_reads {site : Site} {m : Buf} {n : Nat} {d e : Decoder} (h : decRenorm site m n d = .ok e) : DecReads d e := by
  induction n generalizing d with
  | zero => cases h; exact decReads_refl _
  | succ n ih =>
    unfold decRenorm at h
    split at h
    · obtain ⟨d1, h1, h2⟩ := bind_eq_ok.1 h
      have hr : DecReads d1 { d1 with range := d1.range <<< 8 } := decReads_of_regs rfl rfl rfl
      exact decReads_trans (decReads_trans (takeByte_reads h1) hr) (ih h2)
    · cases h; exact decReads_refl _

theorem decRenorm_stops {site : Site} {m : Buf} {n : Nat} {d : Decoder} {x : Stop Decoder} (h : decRenorm site m n d = .error x) :
    DecStops site m d x := by
  induction n generalizing d with
  | zero => cases h
  | succ n ih =>
    unfold decRenorm at h
    split at h
    · rcases bind_eq_error.1 h with h | ⟨d1, h1, h2⟩
      · exact takeByte_stops h
      · have hr : DecReads d1 { d1 with range := d1.range <<< 8 } := decReads_of_regs rfl rfl rfl
        exact decStops_of_reads (decReads_trans (takeByte_reads h1) hr) (ih h2)
    · cases h

/-- consume_fn, when it completes, only read the bytes up to the new IN_PTR. -/
theorem consumeFn_reads {site : Site} {m : Buf} {cum fr : Nat} {d e : Decoder} (h : consumeFn site m cum fr d = .ok e) :
    DecReads d e :=
  decReads_trans (decReads_of_regs rfl rfl rfl : DecReads d (decNarrow cum fr d)) (decRenorm_reads h)

/-- consume_fn, when it stops, raised INPUT_EXHAUSTED at its site. -/
theorem consumeFn_stops {site : Site} {m : Buf} {cum fr : Nat} {d : Decoder} {x : Stop Decoder}
    (h : consumeFn site m cum fr d = .error x) : DecStops site m d x :=
  decStops_of_reads (decReads_of_regs rfl rfl rfl : DecReads d (decNarrow cum fr d)) (decRenorm_stops h)

end Machine
end Sys2Proof
end

