-- ==== Sys2Proof/Laws/CodeValue.lean ====
section
/-! SUPPORT. The range encoder as arithmetic: what each of its functions does to the one number that the bytes written, the bytes
held back and `low` make (`EncPort.codeValue`), and when they complete. -/

namespace Sys2Proof
namespace Machine

/-! ## Numbers in BUF -/

theorem bigNumber_congr {m m' : Buf} {a n : Nat} (h : ∀ b, a ≤ b → b < a + n → m'.byte b = m.byte b) :
    m'.bigNumber a n = m.bigNumber a n := by
  induction n with
  | zero => rfl
  | succ n ih => rw [Buf.bigNumber, Buf.bigNumber, h (a + n) (by omega) (by omega), ih fun b h1 h2 => h b h1 (by omega)]

theorem bigNumber_add (m : Buf) (a n k : Nat) : m.bigNumber a (n + k) = m.bigNumber a n * 256 ^ k + m.bigNumber (a + n) k := by
  induction k with
  | zero => simp [Buf.bigNumber]
  | succ k ih =>
    rw [← Nat.add_assoc, Buf.bigNumber, ih, Buf.bigNumber, Nat.pow_succ, ← Nat.add_assoc]
    ring

theorem bigNumber_one (m : Buf) (a : Nat) : m.bigNumber a 1 = (m.byte a).toNat := by
  simp [Buf.bigNumber]

theorem bigNumber_lt (m : Buf) (a n : Nat) : m.bigNumber a n < 256 ^ n := by
  induction n with
  | zero => simp [Buf.bigNumber]
  | succ n ih =>
    have := (m.byte (a + n)).isLt
    rw [Buf.bigNumber, Nat.pow_succ]
    omega

/-- A byte c followed by n bytes 0xFF. -/
theorem bigNumber_ones {m : Buf} {a n c : Nat} (h0 : (m.byte a).toNat = c)
    (h1 : ∀ k, 1 ≤ k → k ≤ n → m.byte (a + k) = 0xFF#8) : m.bigNumber a (n + 1) = (c + 1) * 256 ^ n - 1 := by
  induction n with
  | zero => simp [bigNumber_one, h0]
  | succ n ih =>
    rw [Buf.bigNumber, ih fun k hk1 hk2 => h1 k hk1 (by omega), h1 (n + 1) (by omega) (Nat.le_refl _), Nat.pow_succ]
    have : 1 ≤ (c + 1) * 256 ^ n := Nat.mul_pos (by omega) (Nat.pow_pos (by omega))
    simp only [BitVec.toNat_ofNat]
    rw [← Nat.mul_assoc]
    omega

/-- A byte c followed by n bytes 0. -/
theorem bigNumber_zeros {m : Buf} {a n c : Nat} (h0 : (m.byte a).toNat = c)
    (h1 : ∀ k, 1 ≤ k → k ≤ n → m.byte (a + k) = 0#8) : m.bigNumber a (n + 1) = c * 256 ^ n := by
  induction n with
  | zero => simp [bigNumber_one, h0]
  | succ n ih =>
    rw [Buf.bigNumber, ih fun k hk1 hk2 => h1 k hk1 (by omega), h1 (n + 1) (by omega) (Nat.le_refl _), Nat.pow_succ]
    simp only [BitVec.toNat_ofNat]
    ring

/-- The code value of a byte held back again, 0xFF, beside one of a byte position less. -/
theorem held_arith {x y low : Nat} (hy : 1 ≤ y) (h1 : 0xFF000000 ≤ low) (h2 : low < 2 ^ 32) :
    (x * 256 + (y * 256 - 1)) * 2 ^ 32 + low % 2 ^ 24 * 2 ^ 8 = ((x + (y - 1)) * 2 ^ 32 + low) * 256 := by
  omega

/-! ## shiftLow -/

/-- Everything about an open encoding that shiftLow needs, for an interval of width r. -/
structure EncOpen (r : Nat) (p : EncPort) : Prop where
  order : u32 p.enc.outBase ≤ u32 p.enc.outPtr
  held : 1 ≤ u32 p.enc.csize
  width : p.enc.low.toNat + r < 2 ^ 33
  carry : p.enc.cache = 0xFF#8 → p.enc.low.toNat + r ≤ 2 ^ 32

/-- The registers that shiftLow leaves alone. -/
def EncPort.sameRest (p q : EncPort) : Prop :=
  q.enc.range = p.enc.range ∧ q.enc.state = p.enc.state ∧ q.enc.outBase = p.enc.outBase ∧ q.enc.outEnd = p.enc.outEnd

theorem holdTop_eq_ok {site : Site} {p q : EncPort} (h : holdTop site p = .ok q) :
    u32 p.enc.csize ≠ 2 ^ 32 - 1 ∧
      q = { p with enc := { p.enc with csize := p.enc.csize + 1#32, low := BitVec.ofNat 33 (p.enc.low.toNat % 2 ^ 24 * 2 ^ 8) } } := by
  unfold holdTop at h
  split at h <;> cases h
  exact ⟨‹_›, rfl⟩

theorem low_shifted (x : BitVec 33) : (BitVec.ofNat 33 (x.toNat % 2 ^ 24 * 2 ^ 8)).toNat = x.toNat % 2 ^ 24 * 2 ^ 8 := by
  rw [BitVec.toNat_ofNat]
  omega

/-- The bytes that shiftLow releases, as a number: the held-back bytes, plus the carry. -/
theorem released_number {site : Site} {p q : EncPort} {r : Nat} (ho : EncOpen r p) (hr : 0 < r)
    (h : putHeld site (BitVec.ofNat 8 (p.enc.low.toNat / 2 ^ 32)) (u32 (p.enc.csize - 1#32)) p.enc.cache p = .ok q) :
    q.buf.bigNumber (u32 p.enc.outPtr) (u32 p.enc.csize)
      = (p.enc.cache.toNat + 1) * 256 ^ (u32 p.enc.csize - 1) - 1 + p.enc.low.toNat / 2 ^ 32 := by
  obtain ⟨hb, hk⟩ := putHeld_bytes h
  rw [u32_sub_one ho.held] at hk
  obtain ⟨n, hn⟩ : ∃ n, u32 p.enc.csize = n + 1 := ⟨u32 p.enc.csize - 1, by have := ho.held; omega⟩
  have hw := ho.width
  rw [hn] at hk ⊢
  have hpow : 1 ≤ 256 ^ n := Nat.pow_pos (by omega)
  by_cases hc : p.enc.low.toNat / 2 ^ 32 = 0
  · rw [hc] at hb hk ⊢
    simp only [BitVec.add_zero] at hb hk
    rw [bigNumber_ones (congrArg BitVec.toNat hb) fun k h1 h2 => hk k h1 (by omega)]
    rfl
  · have h1 : p.enc.low.toNat / 2 ^ 32 = 1 := by omega
    have hne : p.enc.cache ≠ 0xFF#8 := fun e => by
      have := ho.carry e
      omega
    have hlt : p.enc.cache.toNat + 1 < 256 := by
      have hl := p.enc.cache.isLt
      have : p.enc.cache.toNat ≠ 255 := fun e => hne (BitVec.eq_of_toNat_eq (by simpa using e))
      omega
    rw [h1] at hb hk ⊢
    have hb' : (q.buf.byte (u32 p.enc.outPtr)).toNat = p.enc.cache.toNat + 1 := by
      rw [hb, BitVec.toNat_add]
      simp only [BitVec.toNat_ofNat]
      omega
    rw [bigNumber_zeros hb' fun k h1 h2 => by rw [hk k h1 (by omega)]; rfl]
    have : 1 ≤ (p.enc.cache.toNat + 1) * 256 ^ n := Nat.mul_pos (by omega) hpow
    simp only [Nat.add_sub_cancel]
    omega

/-- shiftLow when the top byte is final: the held-back bytes and the carry are written, the top byte is held back. -/
theorem release_value {site : Site} {p q : EncPort} {r : Nat} (ho : EncOpen r p) (hr : 0 < r) (hr' : r < 2 ^ 24)
    (hcase : p.enc.low.toNat < 0xFF000000 ∨ p.enc.low.toNat ≥ 2 ^ 32) (h : (releaseHeld site p).bind (holdTop site) = .ok q) :
    q.codeValue = p.codeValue * 256 ∧ u32 q.enc.outPtr + u32 q.enc.csize = u32 p.enc.outPtr + u32 p.enc.csize + 1 ∧
      EncOpen (r * 256) q ∧ q.enc.low.toNat = p.enc.low.toNat % 2 ^ 24 * 2 ^ 8 ∧ p.sameRest q := by
  have hw := ho.width
  have hlow := p.enc.low.isLt
  obtain ⟨p2, hrel, hhold⟩ := bind_eq_ok.1 h
  obtain ⟨p1, hput, rfl⟩ := map_eq_ok.1 hrel
  obtain ⟨-, rfl⟩ := holdTop_eq_ok hhold
  obtain ⟨hregs, hptr⟩ := putHeld_regs hput
  have hnum := released_number ho hr hput
  have hgrow := putHeld_grows hput
  rw [u32_sub_one ho.held] at hptr
  have hheld := ho.held
  have hptr' : u32 p1.enc.outPtr = u32 p.enc.outPtr + u32 p.enc.csize := by omega
  have hcs : p1.enc.csize = 0#32 := by
    rw [hregs]
    simp only
    rw [u32_sub_one ho.held, Nat.sub_add_cancel hheld]
    simp [u32]
  have hbase : p1.enc.outBase = p.enc.outBase := by rw [hregs]
  have hlow1 : p1.enc.low = p.enc.low := by rw [hregs]
  have hord := ho.order
  have hdig : (BitVec.ofNat 8 (p.enc.low.toNat / 2 ^ 24)).toNat = p.enc.low.toNat / 2 ^ 24 % 256 := by
    simp [BitVec.toNat_ofNat]
  refine ⟨?_, ?_, ⟨?_, ?_, ?_, ?_⟩, ?_, ?_⟩
  · unfold EncPort.codeValue
    simp only [hcs, hbase, hlow1, hptr', low_shifted, hdig, show u32 (0#32 + 1#32) = 1 from rfl]
    rw [show u32 p.enc.outPtr + u32 p.enc.csize - u32 p.enc.outBase
        = (u32 p.enc.outPtr - u32 p.enc.outBase) + u32 p.enc.csize by omega, bigNumber_add,
      show u32 p.enc.outBase + (u32 p.enc.outPtr - u32 p.enc.outBase) = u32 p.enc.outPtr by omega, hnum,
      bigNumber_congr (m := p.buf) fun b h1 h2 => hgrow.outside b (.inl (by omega))]
    generalize p.buf.bigNumber _ _ * 256 ^ u32 p.enc.csize = x
    generalize (p.enc.cache.toNat + 1) * 256 ^ (u32 p.enc.csize - 1) - 1 = y
    simp only [Nat.sub_self, Nat.pow_zero, Nat.pow_one]
    omega
  · simp only [hcs, hptr', show u32 (0#32 + 1#32) = 1 from rfl]
  · simp only [hbase, hptr']
    omega
  · simp only [hcs]
    decide
  · simp only [hlow1, low_shifted]
    omega
  · intro hff
    simp only [hlow1] at hff
    have := congrArg BitVec.toNat hff
    rw [hdig] at this
    simp only [hlow1, BitVec.toNat_ofNat] at this ⊢
    omega
  · simp only [hlow1, low_shifted]
  · simp only [EncPort.sameRest, hregs, and_self]

/-- shiftLow when the top byte is 0xFF and no carry has come: it is held back too. -/
theorem hold_value {site : Site} {p q : EncPort} {r : Nat} (ho : EncOpen r p) (hr' : r < 2 ^ 24)
    (hcase : ¬(p.enc.low.toNat < 0xFF000000 ∨ p.enc.low.toNat ≥ 2 ^ 32)) (h : holdTop site p = .ok q) :
    q.codeValue = p.codeValue * 256 ∧ u32 q.enc.outPtr + u32 q.enc.csize = u32 p.enc.outPtr + u32 p.enc.csize + 1 ∧
      EncOpen (r * 256) q ∧ q.enc.low.toNat = p.enc.low.toNat % 2 ^ 24 * 2 ^ 8 ∧ p.sameRest q := by
  obtain ⟨hne, rfl⟩ := holdTop_eq_ok h
  have hc := u32_lt p.enc.csize
  have hcs : u32 (p.enc.csize + 1#32) = u32 p.enc.csize + 1 := u32_add_one (by omega)
  have hheld := ho.held
  refine ⟨?_, ?_, ⟨ho.order, ?_, ?_, ?_⟩, ?_, ?_⟩
  · unfold EncPort.codeValue
    simp only [hcs, low_shifted]
    obtain ⟨n, hn⟩ : ∃ n, u32 p.enc.csize = n + 1 := ⟨u32 p.enc.csize - 1, by omega⟩
    have hpow : 1 ≤ (p.enc.cache.toNat + 1) * 256 ^ n := Nat.mul_pos (by omega) (Nat.pow_pos (by omega))
    have e1 : 256 ^ (n + 1) = 256 ^ n * 256 := rfl
    have e2 : 256 ^ (n + 1 + 1) = 256 ^ n * 256 * 256 := rfl
    simp only [hn, Nat.add_sub_cancel, e1, e2, ← Nat.mul_assoc]
    exact held_arith hpow (by omega) (by omega)
  · simp only [hcs]
    omega
  · simp only [hcs]
    omega
  · simp only [low_shifted]
    omega
  · intro hff
    have := ho.carry hff
    simp only [low_shifted]
    omega
  · simp only [low_shifted]
  · simp [EncPort.sameRest]

/-- What shiftLow does to an open encoding (R275, R285): the code grows by one byte position, and one more byte is written or held
back. -/
theorem shiftLow_value {site : Site} {p q : EncPort} {r : Nat} (ho : EncOpen r p) (hr : 0 < r) (hr' : r < 2 ^ 24)
    (h : shiftLow site p = .ok q) :
    q.codeValue = p.codeValue * 256 ∧ u32 q.enc.outPtr + u32 q.enc.csize = u32 p.enc.outPtr + u32 p.enc.csize + 1 ∧
      EncOpen (r * 256) q ∧ q.enc.low.toNat = p.enc.low.toNat % 2 ^ 24 * 2 ^ 8 ∧ p.sameRest q := by
  unfold shiftLow at h
  split at h
  · exact release_value ho hr hr' ‹_› h
  · exact hold_value ho hr' ‹_› h

/-- shiftLow completes while the held-back bytes fit. -/
theorem shiftLow_of_room {site : Site} {p : EncPort} (h0 : 1 ≤ u32 p.enc.csize)
    (h1 : u32 p.enc.outPtr + u32 p.enc.csize ≤ u32 p.enc.outEnd) (h2 : u32 p.enc.outEnd ≤ p.buf.size)
    (h3 : u32 p.enc.csize < 2 ^ 32 - 1) : ∃ q, shiftLow site p = .ok q := by
  cases h : shiftLow site p with
  | ok q => exact ⟨q, rfl⟩
  | error e =>
    exfalso
    unfold shiftLow at h
    split at h
    · obtain ⟨q, hq⟩ := putHeld_of_le (site := site) (carry := BitVec.ofNat 8 (p.enc.low.toNat / 2 ^ 32)) (temp := p.enc.cache)
        (n := u32 (p.enc.csize - 1#32)) (p := p) (by rw [u32_sub_one h0]; omega) h2
      rcases bind_eq_error.1 h with h | ⟨p1, hr, hh⟩
      · have := map_eq_error.1 h
        rw [hq] at this
        cases this
      · obtain ⟨p2, hp2, rfl⟩ := map_eq_ok.1 hr
        have hregs := (putHeld_regs hp2).1
        unfold holdTop at hh
        split at hh
        · rename_i hcs
          rw [hregs] at hcs
          simp only at hcs
          rw [u32_sub_one h0, Nat.sub_add_cancel h0] at hcs
          simp [u32] at hcs
        · cases hh
    · unfold holdTop at h
      split at h
      · omega
      · cases h

/-! ## encode_fn -/

theorem range_shifted {x : Word} (h : u32 x < Config.rcTop) : u32 (x <<< 8) = u32 x * 256 := by
  simp only [u32, Config.rcTop] at h ⊢
  rw [BitVec.toNat_shiftLeft, Nat.shiftLeft_eq]
  omega

/-- What the renormalisation of encode_fn does to an open encoding: k shifts, as few as bring the range to 2^24 (R273, R276). -/
theorem encRenorm_value {site : Site} {n : Nat} {p q : EncPort} (ho : EncOpen (u32 p.enc.range) p) (hr : 0 < u32 p.enc.range)
    (hn : 2 ^ 24 ≤ u32 p.enc.range * 256 ^ n) (h : encRenorm site n p = .ok q) :
    ∃ k, k ≤ n ∧ u32 q.enc.range = u32 p.enc.range * 256 ^ k ∧ 2 ^ 24 ≤ u32 q.enc.range ∧
      (k = 0 ∨ u32 p.enc.range * 256 ^ (k - 1) < 2 ^ 24) ∧ q.codeValue = p.codeValue * 256 ^ k ∧
      u32 q.enc.outPtr + u32 q.enc.csize = u32 p.enc.outPtr + u32 p.enc.csize + k ∧ EncOpen (u32 q.enc.range) q ∧
      q.enc.state = p.enc.state := by
  induction n generalizing p with
  | zero =>
    cases h
    exact ⟨0, Nat.le_refl _, by simp, by simpa using hn, .inl rfl, by simp, rfl, ho, rfl⟩
  | succ n ih =>
    unfold encRenorm at h
    split at h
    · rename_i hlt
      obtain ⟨p1, h1, h2⟩ := bind_eq_ok.1 h
      have hsh := range_shifted hlt
      have ho' : EncOpen (u32 p.enc.range) { p with enc := { p.enc with range := p.enc.range <<< 8 } } :=
        ⟨ho.order, ho.held, ho.width, ho.carry⟩
      obtain ⟨hv, hc, hop, -, hrg, hst, -, -⟩ := shiftLow_value ho' hr hlt h1
      have hrg' : u32 p1.enc.range = u32 p.enc.range * 256 := by rw [hrg, hsh]
      rw [← hrg'] at hop
      obtain ⟨k, hk, hkr, hkt, hkm, hkv, hkc, hko, hks⟩ :=
        ih hop (by omega) (by rw [hrg', Nat.mul_assoc, ← Nat.pow_succ']; exact hn) h2
      refine ⟨k + 1, by omega, ?_, hkt, .inr ?_, ?_, ?_, hko, hks.trans hst⟩
      · rw [hkr, hrg', Nat.pow_succ', Nat.mul_assoc]
      · simp only [Nat.add_sub_cancel]
        simp only [Config.rcTop] at hlt
        rcases hkm with rfl | hkm
        · simpa using hlt
        · rw [hrg', Nat.mul_assoc, ← Nat.pow_succ'] at hkm
          rcases k with _ | k
          · simpa using hlt
          · simpa using hkm
      · rw [hkv, hv, Nat.pow_succ', ← Nat.mul_assoc]
        rfl
      · simp only at hc
        omega
    · rename_i hge
      cases h
      exact ⟨0, by omega, by simp, by simpa [Config.rcTop] using hge, .inl rfl, by simp, rfl, ho, rfl⟩

/-- The renormalisation of encode_fn completes while j more bytes than are held back fit, if it needs at most j + 1 shifts. -/
theorem encRenorm_of_room {site : Site} {n j : Nat} {p : EncPort} (ho : EncOpen (u32 p.enc.range) p) (hr : 0 < u32 p.enc.range)
    (hj : 2 ^ 24 ≤ u32 p.enc.range * 256 ^ (j + 1)) (h1 : u32 p.enc.outPtr + u32 p.enc.csize + j ≤ u32 p.enc.outEnd)
    (h2 : u32 p.enc.outEnd ≤ p.buf.size) (h3 : u32 p.enc.csize + j < 2 ^ 32 - 1) : ∃ q, encRenorm site n p = .ok q := by
  induction n generalizing p j with
  | zero => exact ⟨p, rfl⟩
  | succ n ih =>
    unfold encRenorm
    split
    · rename_i hlt
      have hsh := range_shifted hlt
      have ho' : EncOpen (u32 p.enc.range) { p with enc := { p.enc with range := p.enc.range <<< 8 } } :=
        ⟨ho.order, ho.held, ho.width, ho.carry⟩
      obtain ⟨q, hq⟩ := shiftLow_of_room (site := site) (p := { p with enc := { p.enc with range := p.enc.range <<< 8 } })
        ho.held (by simp only; omega) h2 (by simp only; omega)
      obtain ⟨-, hc, hop, -, hrg, -, -, hend⟩ := shiftLow_value ho' hr hlt hq
      have hg := shiftLow_grows hq
      have hrg' : u32 q.enc.range = u32 p.enc.range * 256 := by rw [hrg, hsh]
      rw [← hrg'] at hop
      rw [hq]
      simp only [Except.bind]
      simp only at hc hend
      rcases j with _ | j
      · -- the range has reached 2^24: no further pass runs
        have : ¬u32 q.enc.range < Config.rcTop := by
          rw [hrg']
          simpa [Config.rcTop] using hj
        cases n with
        | zero => exact ⟨q, rfl⟩
        | succ n => exact ⟨q, by rw [encRenorm, if_neg this]⟩
      · refine ih (j := j) hop (by omega) ?_ ?_ ?_ ?_
        · rw [hrg', Nat.mul_assoc, ← Nat.pow_succ']
          exact hj
        · rw [hend]
          omega
        · rw [hend, hg.size]
          exact h2
        · have := hg.ptr
          simp only at this
          omega
    · exact ⟨p, rfl⟩

/-- The narrowing of encode_fn keeps an open encoding open, inside its old interval (R272), and adds r·cum to the code. -/
theorem encNarrow_open {cum fr : Nat} {p : EncPort} (ho : EncOpen (u32 p.enc.range) p) (hc : cum + fr ≤ Config.total) :
    EncOpen (u32 (encNarrow cum fr p).enc.range) (encNarrow cum fr p) ∧
      u32 (encNarrow cum fr p).enc.range = u32 p.enc.range / 2 ^ 15 * fr ∧
      (encNarrow cum fr p).codeValue = p.codeValue + u32 p.enc.range / 2 ^ 15 * cum := by
  have hrl := u32_lt p.enc.range
  have hle : u32 p.enc.range / 2 ^ 15 * (cum + fr) ≤ u32 p.enc.range := by
    calc u32 p.enc.range / 2 ^ 15 * (cum + fr) ≤ u32 p.enc.range / 2 ^ 15 * 2 ^ 15 := Nat.mul_le_mul_left _ hc
      _ ≤ u32 p.enc.range := Nat.div_mul_le_self _ _
  rw [Nat.mul_add] at hle
  have hw := ho.width
  have hrange : u32 (encNarrow cum fr p).enc.range = u32 p.enc.range / 2 ^ 15 * fr := u32_ofNat (by omega)
  have hlow : (encNarrow cum fr p).enc.low.toNat = p.enc.low.toNat + u32 p.enc.range / 2 ^ 15 * cum := by
    simp only [encNarrow, BitVec.toNat_ofNat]
    omega
  refine ⟨⟨ho.order, ho.held, ?_, fun hff => ?_⟩, hrange, ?_⟩
  · rw [hrange, hlow]
    omega
  · have := ho.carry hff
    rw [hrange, hlow]
    omega
  · unfold EncPort.codeValue
    rw [hlow]
    simp only [encNarrow]
    omega

/-- The narrowed range of an ACTIVE encoder is at least 2^9 (R273). -/
theorem narrowed_ge {x fr : Nat} (hx : Config.rcTop ≤ x) (hf : 1 ≤ fr) : 2 ^ 9 ≤ x / 2 ^ 15 * fr := by
  have : 2 ^ 9 ≤ x / 2 ^ 15 := by
    simp only [Config.rcTop] at hx
    omega
  calc 2 ^ 9 ≤ x / 2 ^ 15 := this
    _ = x / 2 ^ 15 * 1 := (Nat.mul_one _).symm
    _ ≤ x / 2 ^ 15 * fr := Nat.mul_le_mul_left _ hf

/-- What encode_fn does to an open encoding (R273, R276, R285): with r = range / 2^15, the code grows by r·cum and then by k byte
positions, k at most 2 and as few as bring the range r·fr to 2^24. -/
theorem encodeFn_value {site : Site} {cum fr : Nat} {p q : EncPort} (ho : EncOpen (u32 p.enc.range) p)
    (hr : Config.rcTop ≤ u32 p.enc.range) (hf : 1 ≤ fr) (hc : cum + fr ≤ Config.total) (h : encodeFn site cum fr p = .ok q) :
    ∃ k, k ≤ 2 ∧ u32 q.enc.range = u32 p.enc.range / 2 ^ 15 * fr * 256 ^ k ∧ 2 ^ 24 ≤ u32 q.enc.range ∧
      (k = 0 ∨ u32 p.enc.range / 2 ^ 15 * fr * 256 ^ (k - 1) < 2 ^ 24) ∧
      q.codeValue = (p.codeValue + u32 p.enc.range / 2 ^ 15 * cum) * 256 ^ k ∧
      u32 q.enc.outPtr + u32 q.enc.csize = u32 p.enc.outPtr + u32 p.enc.csize + k ∧ EncOpen (u32 q.enc.range) q ∧
      q.enc.state = p.enc.state := by
  obtain ⟨ho', hrange, hval⟩ := encNarrow_open (fr := fr) ho hc
  have h9 := narrowed_ge hr hf
  have hn : 2 ^ 24 ≤ u32 (encNarrow cum fr p).enc.range * 256 ^ encPassBound (encNarrow cum fr p) := by
    have : 256 ^ 2 ≤ 256 ^ encPassBound (encNarrow cum fr p) := Nat.pow_le_pow_right (by omega) (by simp [encPassBound])
    rw [hrange]
    calc 2 ^ 24 ≤ 2 ^ 9 * 256 ^ 2 := by norm_num
      _ ≤ _ := Nat.mul_le_mul h9 this
  obtain ⟨k, -, h1, h2, h3, h4, h5, h6, h7⟩ := encRenorm_value ho' (by omega) hn h
  rw [hrange] at h1 h3
  refine ⟨k, ?_, h1, h2, h3, by rw [h4, hval], h5, h6, h7⟩
  rcases h3 with rfl | h3
  · omega
  · by_contra hk
    have : 256 ^ 2 ≤ 256 ^ (k - 1) := Nat.pow_le_pow_right (by omega) (by omega)
    have := Nat.mul_le_mul h9 this
    norm_num at this h3
    omega

/-- encode_fn completes while one more byte than is held back fits. -/
theorem encodeFn_of_room {site : Site} {cum fr : Nat} {p : EncPort} (ho : EncOpen (u32 p.enc.range) p)
    (hr : Config.rcTop ≤ u32 p.enc.range) (hf : 1 ≤ fr) (hc : cum + fr ≤ Config.total)
    (h1 : u32 p.enc.outPtr + u32 p.enc.csize + 1 ≤ u32 p.enc.outEnd) (h2 : u32 p.enc.outEnd ≤ p.buf.size)
    (h3 : u32 p.enc.csize + 1 < 2 ^ 32 - 1) : ∃ q, encodeFn site cum fr p = .ok q := by
  obtain ⟨ho', hrange, -⟩ := encNarrow_open (fr := fr) ho hc
  have h9 := narrowed_ge hr hf
  refine encRenorm_of_room (j := 1) ho' (by omega) ?_ h1 h2 h3
  rw [hrange]
  calc 2 ^ 24 ≤ 2 ^ 9 * 256 ^ 2 := by norm_num
    _ ≤ _ := Nat.mul_le_mul_right _ h9

/-! ## flush_fn -/

theorem encOpen_mono {r r' : Nat} {p : EncPort} (ho : EncOpen r p) (h : r' ≤ r) : EncOpen r' p :=
  ⟨ho.order, ho.held, by have := ho.width; omega, fun hff => by have := ho.carry hff; omega⟩

/-- shiftLow with low = 0 writes every held-back byte and holds back a 0 (R280). -/
theorem shiftLow_zero {site : Site} {p q : EncPort} (h0 : p.enc.low.toNat = 0) (h1 : 1 ≤ u32 p.enc.csize)
    (h : shiftLow site p = .ok q) : q.enc.csize = 1#32 ∧ q.enc.cache = 0#8 := by
  unfold shiftLow at h
  rw [if_pos (by omega)] at h
  obtain ⟨p2, hrel, hhold⟩ := bind_eq_ok.1 h
  obtain ⟨p1, hput, rfl⟩ := map_eq_ok.1 hrel
  obtain ⟨-, rfl⟩ := holdTop_eq_ok hhold
  have hregs := (putHeld_regs hput).1
  have hcs : p1.enc.csize = 0#32 := by
    rw [hregs]
    simp only
    rw [u32_sub_one h1, Nat.sub_add_cancel h1]
    simp [u32]
  have hlow : p1.enc.low.toNat = 0 := by rw [hregs]; exact h0
  simp [hcs, hlow]

/-- What flush_fn leaves (R280): the bytes written since OUT_BASE are the code, most significant first, and end four bytes after the
last one held back. -/
theorem flushFn_value {site : Site} {p q : EncPort} {r : Nat} (ho : EncOpen r p) (hr : 0 < r) (h : flushFn site p = .ok q) :
    q.buf.bigNumber (u32 p.enc.outBase) (u32 q.enc.outPtr - u32 p.enc.outBase) = p.codeValue ∧
      u32 q.enc.outPtr = u32 p.enc.outPtr + u32 p.enc.csize + 4 ∧ q.enc.low = 0#33 ∧ q.enc.cache = 0#8 ∧ q.enc.csize = 1#32 ∧
      p.sameRest q := by
  obtain ⟨p1, p2, p3, p4, h1, h2, h3, h4, h5⟩ := flushFn_eq_ok h
  have one : (0 : Nat) < 1 := by omega
  have small : (1 : Nat) < 2 ^ 24 := by omega
  obtain ⟨v1, c1, o1, l1, r1⟩ := shiftLow_value (encOpen_mono ho hr) one small h1
  obtain ⟨v2, c2, o2, l2, r2⟩ := shiftLow_value (encOpen_mono o1 (by omega)) one small h2
  obtain ⟨v3, c3, o3, l3, r3⟩ := shiftLow_value (encOpen_mono o2 (by omega)) one small h3
  obtain ⟨v4, c4, o4, l4, r4⟩ := shiftLow_value (encOpen_mono o3 (by omega)) one small h4
  obtain ⟨v5, c5, -, l5, r5⟩ := shiftLow_value (encOpen_mono o4 (by omega)) one small h5
  have hl4 : p4.enc.low.toNat = 0 := by
    have := p.enc.low.isLt
    omega
  obtain ⟨hcs, hca⟩ := shiftLow_zero hl4 o4.held h5
  have hl5 : q.enc.low.toNat = 0 := by omega
  have hsame : p.sameRest q := by
    simp only [EncPort.sameRest] at *
    simp [r1, r2, r3, r4, r5]
  have hone : u32 (1#32) = 1 := rfl
  have hcode : q.codeValue = p.codeValue * 256 ^ 5 := by
    rw [v5, v4, v3, v2, v1]
    ring
  have hbase := hsame.2.2.1
  refine ⟨?_, ?_, BitVec.eq_of_toNat_eq hl5, hca, hcs, hsame⟩
  · unfold EncPort.codeValue at hcode
    rw [hcs, hca, hl5, hbase, hone] at hcode
    generalize q.buf.bigNumber _ _ = x at hcode ⊢
    simp only [EncPort.codeValue]
    simp only [BitVec.toNat_ofNat, Nat.sub_self, Nat.pow_zero, Nat.pow_one] at hcode
    omega
  · rw [hcs, hone] at c5
    omega

/-- flush_fn completes while four more bytes than are held back fit. -/
theorem flushFn_of_room {site : Site} {p : EncPort} {r : Nat} (ho : EncOpen r p) (hr : 0 < r)
    (h1 : u32 p.enc.outPtr + u32 p.enc.csize + 4 ≤ u32 p.enc.outEnd) (h2 : u32 p.enc.outEnd ≤ p.buf.size)
    (h3 : u32 p.enc.csize + 4 < 2 ^ 32 - 1) : ∃ q, flushFn site p = .ok q := by
  have one : (0 : Nat) < 1 := by omega
  have small : (1 : Nat) < 2 ^ 24 := by omega
  -- each shiftLow completes, and leaves the next one its room
  have next : ∀ (j : Nat) (a : EncPort), EncOpen 1 a → u32 a.enc.outPtr + u32 a.enc.csize + j ≤ u32 a.enc.outEnd →
      u32 a.enc.outEnd ≤ a.buf.size → u32 a.enc.csize + j < 2 ^ 32 - 1 → ∃ b, shiftLow site a = .ok b ∧ EncOpen 1 b ∧
        (1 ≤ j → u32 b.enc.outPtr + u32 b.enc.csize + (j - 1) ≤ u32 b.enc.outEnd) ∧ u32 b.enc.outEnd ≤ b.buf.size ∧
        (1 ≤ j → u32 b.enc.csize + (j - 1) < 2 ^ 32 - 1) := by
    intro j a oa ha1 ha2 ha3
    obtain ⟨b, hb⟩ := shiftLow_of_room (site := site) oa.held (by omega) ha2 (by omega)
    obtain ⟨-, hc, ob, -, -, -, -, hend⟩ := shiftLow_value oa one small hb
    have hg := shiftLow_grows hb
    have hp := hg.ptr
    refine ⟨b, hb, encOpen_mono ob (by omega), fun hj => by rw [hend]; omega, by rw [hend, hg.size]; exact ha2, fun hj => by omega⟩
  obtain ⟨p1, e1, o1, a1, b1, c1⟩ := next 4 p (encOpen_mono ho hr) h1 h2 h3
  obtain ⟨p2, e2, o2, a2, b2, c2⟩ := next 3 p1 o1 (a1 (by omega)) b1 (c1 (by omega))
  obtain ⟨p3, e3, o3, a3, b3, c3⟩ := next 2 p2 o2 (a2 (by omega)) b2 (c2 (by omega))
  obtain ⟨p4, e4, o4, a4, b4, c4⟩ := next 1 p3 o3 (a3 (by omega)) b3 (c3 (by omega))
  obtain ⟨p5, e5, -⟩ := next 0 p4 o4 (a4 (by omega)) b4 (c4 (by omega))
  exact ⟨p5, by simp [flushFn, e1, e2, e3, e4, e5, Except.bind]⟩

end Machine
end Sys2Proof
end

