-- ==== Sys2Proof/Laws/Decoder.lean ====
section
/-! SUPPORT. The range decoder as arithmetic: what each of its functions does to DEC_CODE and DEC_RANGE and to IN_PTR, and when they
complete. -/

namespace Sys2Proof
namespace Machine

/-- What the renormalisation of consume_fn does (R273, R295): k shifts, as few as bring the range to 2^24, each with one byte. -/
theorem decRenorm_value {site : Site} {m : Buf} {n : Nat} {d e : Decoder} (hn : 2 ^ 24 ≤ u32 d.range * 256 ^ n)
    (h : decRenorm site m n d = .ok e) :
    ∃ k, k ≤ n ∧ u32 e.range = u32 d.range * 256 ^ k ∧ 2 ^ 24 ≤ u32 e.range ∧
      (k = 0 ∨ u32 d.range * 256 ^ (k - 1) < 2 ^ 24) ∧ u32 e.inPtr = u32 d.inPtr + k ∧
      u32 e.code = (u32 d.code * 256 ^ k + m.bigNumber (u32 d.inPtr) k) % 2 ^ 32 ∧ e.state = d.state := by
  induction n generalizing d with
  | zero =>
    cases h
    exact ⟨0, Nat.le_refl _, by simp, by simpa using hn, .inl rfl, rfl,
      by simpa [Buf.bigNumber] using (Nat.mod_eq_of_lt (u32_lt _)).symm, rfl⟩
  | succ n ih =>
    unfold decRenorm at h
    split at h
    · rename_i hlt
      obtain ⟨d1, h1, h2⟩ := bind_eq_ok.1 h
      obtain ⟨hp, -, rfl⟩ := takeByte_eq_ok h1
      have hl := u32_lt d.inEnd
      have hp1 : u32 (d.inPtr + 1#32) = u32 d.inPtr + 1 := u32_add_one (by omega)
      have hsh := range_shifted hlt
      obtain ⟨k, hk, hr, ht, hm, hi, hc, hs⟩ :=
        ih (by simp only [hsh]; rw [Nat.mul_assoc, ← Nat.pow_succ']; exact hn) h2
      simp only [hsh, hp1] at hr hm hi hc
      refine ⟨k + 1, by omega, ?_, ht, .inr ?_, by omega, ?_, hs⟩
      · rw [hr, Nat.pow_succ', Nat.mul_assoc]
      · simp only [Nat.add_sub_cancel]
        simp only [Config.rcTop] at hlt
        rcases hm with rfl | hm
        · simpa using hlt
        · rw [Nat.mul_assoc, ← Nat.pow_succ'] at hm
          rcases k with _ | k
          · simpa using hlt
          · simpa using hm
      · rw [hc, Nat.add_comm k 1, bigNumber_add, bigNumber_one]
        simp only [u32, BitVec.toNat_ofNat]
        rw [Nat.add_mod, Nat.mul_mod, Nat.mod_mod, ← Nat.mul_mod, ← Nat.add_mod, Nat.pow_add]
        congr 1
        ring
    · rename_i hge
      cases h
      exact ⟨0, by omega, by simp, by simpa [Config.rcTop] using hge, .inl rfl, rfl,
        by simpa [Buf.bigNumber] using (Nat.mod_eq_of_lt (u32_lt _)).symm, rfl⟩

/-- The renormalisation of consume_fn completes while j bytes are left, if it needs at most j shifts. -/
theorem decRenorm_of_room {site : Site} {m : Buf} {n j : Nat} {d : Decoder} (hj : 2 ^ 24 ≤ u32 d.range * 256 ^ j)
    (h1 : u32 d.inPtr + j ≤ u32 d.inEnd) (h2 : u32 d.inEnd ≤ m.size) : ∃ e, decRenorm site m n d = .ok e := by
  induction n generalizing d j with
  | zero => exact ⟨d, rfl⟩
  | succ n ih =>
    unfold decRenorm
    split
    · rename_i hlt
      have hsh := range_shifted hlt
      rcases j with _ | j
      · simp only [Config.rcTop, Nat.pow_zero, Nat.mul_one] at hlt hj
        omega
      · obtain ⟨d1, hd⟩ := takeByte_of_lt (site := site) (m := m) (d := d) (by omega) h2
        obtain ⟨hp, -, rfl⟩ := takeByte_eq_ok hd
        have hl := u32_lt d.inEnd
        have hp1 : u32 (d.inPtr + 1#32) = u32 d.inPtr + 1 := u32_add_one (by omega)
        rw [hd]
        refine ih (j := j) ?_ ?_ h2
        · simp only [hsh]
          rw [Nat.mul_assoc, ← Nat.pow_succ']
          exact hj
        · simp only [hp1]
          omega
    · exact ⟨d, rfl⟩

/-- The narrowing of consume_fn. -/
theorem decNarrow_range {cum fr : Nat} {d : Decoder} (hc : cum + fr ≤ Config.total) :
    u32 (decNarrow cum fr d).range = u32 d.range / 2 ^ 15 * fr := by
  have hrl := u32_lt d.range
  have : u32 d.range / 2 ^ 15 * fr ≤ u32 d.range := by
    calc u32 d.range / 2 ^ 15 * fr ≤ u32 d.range / 2 ^ 15 * 2 ^ 15 :=
        Nat.mul_le_mul_left _ ((Nat.le_add_left fr cum).trans hc)
      _ ≤ u32 d.range := Nat.div_mul_le_self _ _
  exact u32_ofNat (by omega)

/-- What consume_fn does to an ACTIVE decoder (R273, R295): with r = range / 2^15, the code drops by r·cum mod 2^32 and takes k bytes,
k at most 2 and as few as bring the range r·fr to 2^24. -/
theorem consumeFn_value {site : Site} {m : Buf} {cum fr : Nat} {d e : Decoder} (hr : Config.rcTop ≤ u32 d.range) (hf : 1 ≤ fr)
    (hc : cum + fr ≤ Config.total) (h : consumeFn site m cum fr d = .ok e) :
    ∃ k, k ≤ 2 ∧ u32 e.range = u32 d.range / 2 ^ 15 * fr * 256 ^ k ∧ 2 ^ 24 ≤ u32 e.range ∧
      (k = 0 ∨ u32 d.range / 2 ^ 15 * fr * 256 ^ (k - 1) < 2 ^ 24) ∧ u32 e.inPtr = u32 d.inPtr + k ∧
      u32 e.code = (u32 (toWord ((u32 d.code : Int) - ((u32 d.range / 2 ^ 15 * cum : Nat) : Int))) * 256 ^ k
        + m.bigNumber (u32 d.inPtr) k) % 2 ^ 32 ∧ e.state = d.state := by
  have hrange := decNarrow_range (d := d) hc
  have h9 := narrowed_ge hr hf
  have hn : 2 ^ 24 ≤ u32 (decNarrow cum fr d).range * 256 ^ decPassBound (decNarrow cum fr d) := by
    have : 256 ^ 2 ≤ 256 ^ decPassBound (decNarrow cum fr d) := Nat.pow_le_pow_right (by omega) (by simp [decPassBound])
    rw [hrange]
    calc 2 ^ 24 ≤ 2 ^ 9 * 256 ^ 2 := by norm_num
      _ ≤ _ := Nat.mul_le_mul h9 this
  obtain ⟨k, -, h1, h2, h3, h4, h5, h6⟩ := decRenorm_value hn h
  rw [hrange] at h1 h3
  refine ⟨k, ?_, h1, h2, h3, h4, h5, h6⟩
  rcases h3 with rfl | h3
  · omega
  · by_contra hk
    have : 256 ^ 2 ≤ 256 ^ (k - 1) := Nat.pow_le_pow_right (by omega) (by omega)
    have := Nat.mul_le_mul h9 this
    norm_num at this h3
    omega

/-- consume_fn completes while two bytes are left. -/
theorem consumeFn_of_room {site : Site} {m : Buf} {cum fr : Nat} {d : Decoder} (hr : Config.rcTop ≤ u32 d.range) (hf : 1 ≤ fr)
    (hc : cum + fr ≤ Config.total) (h1 : u32 d.inPtr + 2 ≤ u32 d.inEnd) (h2 : u32 d.inEnd ≤ m.size) :
    ∃ e, consumeFn site m cum fr d = .ok e := by
  have h9 := narrowed_ge hr hf
  refine decRenorm_of_room (j := 2) ?_ h1 h2
  rw [decNarrow_range hc]
  calc 2 ^ 24 ≤ 2 ^ 9 * 256 ^ 2 := by norm_num
    _ ≤ _ := Nat.mul_le_mul_right _ h9

end Machine
end Sys2Proof
end

