-- ==== Sys2Proof/Laws/PerInstr.lean ====
section
/-! SUPPORT. The per-instruction family EncodeLegal: the word of every command is one that the opcode map of 30_encoding.md R135
accepts (R132, R136). -/

namespace Sys2Proof
namespace Laws
namespace EncodeLegal

/-- The command's word matches a row of the opcode map. -/
def Statement (i : Instr) : Prop := wellFormedWord (encode i) = true

theorem nop : Statement .nop := by unfold Statement; decide
theorem srst : Statement .srst := by unfold Statement; decide
theorem prst : Statement .prst := by unfold Statement; decide
theorem cdf (b : Bucket) : Statement (.cdf b) := by unfold Statement; revert b; decide
theorem freq (b : Bucket) : Statement (.freq b) := by unfold Statement; revert b; decide
theorem icdf (b : Bucket) : Statement (.icdf b) := by unfold Statement; revert b; decide
theorem v2b : Statement .v2b := by unfold Statement; decide
theorem b2v : Statement .b2v := by unfold Statement; decide
theorem scalebits : Statement .scalebits := by unfold Statement; decide
theorem qmul (cnj : Bool) : Statement (.qmul cnj) := by unfold Statement; cases cnj <;> decide
theorem qexp : Statement .qexp := by unfold Statement; decide
theorem encInit : Statement .encInit := by unfold Statement; decide
theorem encSym : Statement .encSym := by unfold Statement; decide
theorem encSymb (b : Bucket) : Statement (.encSymb b) := by unfold Statement; revert b; decide
theorem encFlush : Statement .encFlush := by unfold Statement; decide
theorem decInit : Statement .decInit := by unfold Statement; decide
theorem decVal : Statement .decVal := by unfold Statement; decide
theorem decConsume : Statement .decConsume := by unfold Statement; decide
theorem decSymb (b : Bucket) : Statement (.decSymb b) := by unfold Statement; revert b; decide
theorem predict : Statement .predict := by unfold Statement; decide
theorem quant (p : Profile) : Statement (.quant p) := by unfold Statement; cases p <;> decide
theorem dequant (p : Profile) : Statement (.dequant p) := by unfold Statement; cases p <;> decide
theorem classify : Statement .classify := by unfold Statement; decide
theorem vupd : Statement .vupd := by unfold Statement; decide
theorem compress (p : Profile) : Statement (.compress p) := by unfold Statement; cases p <;> decide
theorem decompress : Statement .decompress := by unfold Statement; decide

end EncodeLegal
end Laws
end Sys2Proof
end

