-- ==== Sys2Proof/Tests/Slice0.lean ====
section
/-! SUPPORT. Tests on fixed values, from the spec's own examples (named at each), the WellFormed smoke test, and for every obligation
with hypotheses a witness that meets them. -/

namespace Sys2Proof
namespace Tests
open Machine

-- one kernel evaluation at a time: side by side, those of the witnesses hold more threads than the memory limit allows
set_option Elab.async false

/-! ## Helpers -/

/-- The outcome is a next state with the property. -/
def out (r : Result) (ok : State → Bool) : Bool :=
  match r with
  | .next t => ok t
  | _ => false

theorem next_of_out {r : Result} {ok : State → Bool} (h : out r ok = true) : ∃ t, r = .next t ∧ ok t = true := by
  cases r with
  | next t => exact ⟨t, rfl, h⟩
  | fault f => cases h
  | refused f => cases h

/-- ARG0 to ARG7 with these values. -/
def withArgs (s : State) (a0 a1 a2 a3 a4 a5 a6 a7 : Word) : State := { s with argLo := ⟨a0, a1, a2, a3⟩, argHi := ⟨a4, a5, a6, a7⟩ }

/-- State.reset with ARG0 to ARG3. -/
def args (a0 a1 a2 a3 : Word) : State := withArgs State.reset a0 a1 a2 a3 0 0 0 0

/-- Cells that hold the bytes from an address on. -/
def cellsFrom : Nat → List Nat → List Host.Cell
  | _, [] => []
  | a, v :: rest => (a, BitVec.ofNat 8 v) :: cellsFrom (a + 1) rest

/-- BUF with the bytes from an address on. -/
def bufWith (a : Nat) (l : List Nat) : Buf := { size := 65536, cells := cellsFrom a l, resets := 0 }

/-- BUF holds the bytes from an address on. -/
def holds (m : Buf) (a : Nat) (l : List Nat) : Bool := (cellsFrom a l).all fun c => findCell m.cells c.1 == some c.2

/-- The next state, or State.reset if there is none. -/
def stateOf : Result → State
  | .next t => t
  | _ => State.reset

/-! ## WellFormed: each check refuses an ill-formed word, and the decoder names the reason (R132, R137) -/

theorem test_refuses_reserved_bits : wellFormedWord 0x00004000#32 = false ∧ decode 0x00004000#32 = .error .reservedBits := by decide
theorem test_refuses_bkt_of_nop : wellFormedWord 0x00000100#32 = false ∧ decode 0x00000100#32 = .error .unusedField := by decide
theorem test_refuses_prf_of_cdf : wellFormedWord 0x00001010#32 = false ∧ decode 0x00001010#32 = .error .unusedField := by decide
theorem test_refuses_cnj_of_compress : wellFormedWord 0x00002050#32 = false ∧ decode 0x00002050#32 = .error .unusedField := by decide
theorem test_refuses_bkt_of_qmul : wellFormedWord 0x00000120#32 = false ∧ decode 0x00000120#32 = .error .unusedField := by decide
theorem test_refuses_unassigned : wellFormedWord 0x00000003#32 = false ∧ decode 0x00000003#32 = .error (.unassignedOpcode 3) := by
  decide

/-! ## Decoding: every constructor's word, written from the masks and matches of R135 (R136) -/

theorem test_decode_control :
    decode 0x00000000#32 = .ok .nop ∧ decode 0x00000001#32 = .ok .srst ∧ decode 0x00000002#32 = .ok .prst := by decide
theorem test_decode_variance :
    decode 0x00000310#32 = .ok (.cdf 3) ∧ decode 0x00000611#32 = .ok (.freq 6) ∧ decode 0x00000F12#32 = .ok (.icdf 15) ∧
      decode 0x00000013#32 = .ok .v2b ∧ decode 0x00000014#32 = .ok .b2v ∧ decode 0x00000015#32 = .ok .scalebits := by decide
theorem test_decode_quaternion :
    decode 0x00000020#32 = .ok (.qmul false) ∧ decode 0x00002020#32 = .ok (.qmul true) ∧ decode 0x00000021#32 = .ok .qexp := by
  decide
theorem test_decode_encoder :
    decode 0x00000030#32 = .ok .encInit ∧ decode 0x00000031#32 = .ok .encSym ∧ decode 0x00000632#32 = .ok (.encSymb 6) ∧
      decode 0x00000033#32 = .ok .encFlush := by decide
theorem test_decode_decoder :
    decode 0x00000038#32 = .ok .decInit ∧ decode 0x00000039#32 = .ok .decVal ∧ decode 0x0000003A#32 = .ok .decConsume ∧
      decode 0x00000F3B#32 = .ok (.decSymb 15) := by decide
theorem test_decode_predictor :
    decode 0x00000040#32 = .ok .predict ∧ decode 0x00001041#32 = .ok (.quant .prof1) ∧ decode 0x00000042#32 = .ok (.dequant .prof0) ∧
      decode 0x00000043#32 = .ok .classify ∧ decode 0x00000044#32 = .ok .vupd := by decide
theorem test_decode_block :
    decode 0x00001050#32 = .ok (.compress .prof1) ∧ decode 0x00000050#32 = .ok (.compress .prof0) ∧
      decode 0x00000051#32 = .ok .decompress := by decide

/-- A row's word as the host gives it, and a word that is no row's. -/
theorem test_decode_table_word : decodeTableWord 32 0x632 = some (.encSymb 6) ∧ decodeTableWord 32 0x1010 = none := by decide

/-! ## Control (R171, R172, R175) -/

theorem test_nop : out (exec .nop (State.reset.accept 0)) (fun t => t.statusWord == 0x00000002#32) = true := by decide +kernel
theorem test_srst :
    out (exec .srst ({ State.reset with prof0 := 12, status := { Status.reset with ovr := true } }.accept 1))
      (fun t => t.prof0 == 14 && t.statusWord == 0x00000002#32) = true := by decide +kernel
theorem test_prst :
    out (exec .prst { State.reset with pred := ⟨Quad.all 1, Quad.all 2, Quad.all 3⟩ })
      (fun t => t.readReg (.p1 0) == 0x40000000#32 && t.readReg (.var 2) == 0x00000400#32) = true := by decide +kernel

/-! ## Variance model (the examples of R210 to R215) -/

theorem test_cdf : out (exec (.cdf 6) (args 0 0 0 0)) (fun t => t.result.c0 == 6481#32) = true := by decide +kernel
theorem test_cdf_below : out (exec (.cdf 0) (args 0x80000000 0 0 0)) (fun t => t.result.c0 == 0#32) = true := by decide +kernel
theorem test_freq : out (exec (.freq 6) (args 0 0 0 0)) (fun t => t.result.c0 == 19807#32) = true := by decide +kernel
theorem test_freq_no_wrap : out (exec (.freq 0) (args 0x7FFFFFFF 0 0 0)) (fun t => t.result.c0 == 0#32) = true := by decide +kernel
theorem test_icdf :
    out (exec (.icdf 0) (args 32641 0 0 0)) (fun t => t.result == ⟨1#32, 32641#32, 1#32, 0#32⟩) = true := by decide +kernel
theorem test_icdf_refuses :
    out (exec (.icdf 0) (args 32768 0 0 0)) (fun t => t.status.errcode == .badArgument && t.errSample == 0xFFFFFFFF#32) = true := by
  decide +kernel
theorem test_v2b : out (exec .v2b (args 0x10000 0 0 0)) (fun t => t.result.c0 == 6#32) = true := by decide +kernel
theorem test_v2b_step :
    (out (exec .v2b (args 0x7FF 0 0 0)) fun t => t.result.c0 == 0#32) = true ∧
      (out (exec .v2b (args 0x800 0 0 0)) fun t => t.result.c0 == 1#32) = true := by decide +kernel
theorem test_b2v : out (exec .b2v (args 6 0 0 0)) (fun t => t.result.c0 == 0x00010000#32) = true := by decide +kernel
theorem test_b2v_negative : out (exec .b2v (args 0xFFFFFFFF 0 0 0)) (fun t => t.result.c0 == 0x400#32) = true := by decide +kernel
theorem test_scalebits : out (exec .scalebits State.reset) (fun t => t.result.c0 == 15#32) = true := by decide +kernel

/-! ## Quaternions (the examples and corner cases of R241 and R243) -/

theorem test_qmul_i_j :
    out (exec (.qmul false) (withArgs State.reset 0 0x40000000 0 0 0 0 0x40000000 0))
      (fun t => t.result == ⟨0#32, 0#32, 0#32, 0x40000000#32⟩) = true := by decide +kernel
theorem test_qmul_saturates :
    out (exec (.qmul false) (withArgs State.reset 0x80000000 0 0 0 0x80000000 0 0 0)) (fun t => t.result.c0 == 0x7FFFFFFF#32) = true := by
  decide +kernel
theorem test_qexp :
    out (exec .qexp (args 0x00100000 0 0 0)) (fun t => t.result == ⟨0x3FFFFF80#32, 0x00080000#32, 0#32, 0#32⟩) = true := by
  decide +kernel
theorem test_qexp_floor :
    out (exec .qexp (args 3 (-3) 0 0)) (fun t => t.result.c1 == 1#32 && t.result.c2 == 0xFFFFFFFE#32) = true := by decide +kernel

/-! ## Range coder (the examples of R277 to R297, and R305) -/

/-- ENC_INIT 0x100, 64. -/
def opened : State := stateOf (exec .encInit (args 0x100 64 0 0))

theorem test_encInit :
    out (exec .encInit (args 0x100 64 0 0)) (fun t => t.statusWord == 0x00010002#32 && t.enc.outEnd == 0x140#32) = true := by
  decide +kernel
theorem test_encInit_refuses :
    out (exec .encInit (args 0xFFFFFFFF 2 0 0)) (fun t => t.status.errcode == .badArgument && t.enc.state == .idle) = true := by
  decide +kernel
theorem test_encSym :
    out (exec .encSym (withArgs opened 128 32513 0 0 0 0 0 0))
      (fun t => t.enc.low == 0x00FFFF80#33 && t.enc.range == 0xFE0180FF#32) = true := by decide +kernel
theorem test_encSym_not_ready :
    out (exec .encSym (args 128 32513 0 0)) (fun t => t.status.errcode == .coderNotReady) = true := by decide +kernel
theorem test_encSymb :
    out (exec (.encSymb 6) (withArgs opened 0 0 0 0 0 0 0 0))
      (fun t => t.enc.low == 0x32A1E6AF#33 && t.enc.range == 0x9ABDB2A1#32 && t.enc.outPtr == 0x100#32) = true := by decide +kernel

/-- The first failure trace of R305: ENC_INIT 0x100, 1, then `ENCODE 95, 15`. -/
def heldBack : State := stateOf (exec (.encSymb 15) (withArgs (stateOf (exec .encInit (args 0x100 1 0 0))) 95 0 0 0 0 0 0 0))

theorem test_encSymb_exhausted :
    out (exec (.encSymb 15) (withArgs heldBack 87 0 0 0 0 0 0 0))
      (fun t => t.enc == ⟨0x09F7BCF53#33, 0x003BFB00#32, 0#8, 1#32, 0x100#32, 0x101#32, 0x101#32, .failed⟩ &&
        holds t.buf 0x100 [0] && t.status.errcode == .outputExhausted) = true := by decide +kernel
theorem test_encFlush :
    out (exec .encFlush opened) (fun t => t.result.c0 == 5#32 && holds t.buf 0x100 [0, 0, 0, 0, 0] && t.enc.state == .flushed)
      = true := by decide +kernel

/-- The bytes of program P2 (R281, R293): 00 AF ED BB 24 at 0x100. -/
def coded : State := { args 0x100 5 0 0 with buf := bufWith 0x100 [0x00, 0xAF, 0xED, 0xBB, 0x24] }

/-- `CALL DEC_INIT 0x100, 5`. -/
def decoding : State := stateOf (exec .decInit coded)

theorem test_decInit :
    out (exec .decInit coded)
      (fun t => t.dec == ⟨0xAFEDBB24#32, 0xFFFFFFFF#32, 0x100#32, 0x105#32, 0x105#32, .active⟩) = true := by decide +kernel
theorem test_decInit_exhausted :
    out (exec .decInit { coded with argLo := ⟨0x100#32, 4#32, 0#32, 0#32⟩ })
      (fun t => t.status.errcode == .inputExhausted && t.dec.state == .failed && t.dec.inPtr == 0x104#32) = true := by decide +kernel
theorem test_decVal : out (exec .decVal decoding) (fun t => t.result.c0 == 22519#32) = true := by decide +kernel
theorem test_decConsume :
    out (exec .decConsume (withArgs decoding 6481 19807 0 0 0 0 0 0))
      (fun t => t.dec.code == 0x7D4BD475#32 && t.dec.range == 0x9ABDB2A1#32 && t.dec.inPtr == 0x105#32) = true := by decide +kernel
theorem test_decSymb :
    out (exec (.decSymb 6) decoding) (fun t => t.result.c0 == 0#32 && t.result.c1 == 22519#32) = true := by decide +kernel

/-! ## Predictor and quantizer (the examples of R330 to R334) -/

theorem test_predict :
    out (exec .predict { State.reset with pred := { Predictor.start with p1 := ⟨0x3FFFFF80#32, 0x00080000#32, 0#32, 0#32⟩ } })
      (fun t => t.result == ⟨0x3FFFFE00#32, 0x00100000#32, 0#32, 0#32⟩) = true := by decide +kernel

/-- The operands of R331's example. -/
def quantArgs : State := withArgs State.reset 0x3FFF8000 0x00800000 0 0 0x40000000 0 0 0

theorem test_quant : out (exec (.quant .prof1) quantArgs) (fun t => t.result == ⟨0#32, 8#32, 0#32, 0#32⟩) = true := by decide +kernel
theorem test_quant_overflow :
    out (exec (.quant .prof0) quantArgs)
      (fun t => t.status.errcode == .quantOverflow && t.errSample == 0xFFFFFFFF#32 && t.errChan == 1#32) = true := by decide +kernel
theorem test_dequant :
    out (exec (.dequant .prof1) (withArgs State.reset 0 8 0 0 0x40000000 0 0 0))
      (fun t => t.result == ⟨0x40000000#32, 0x00800000#32, 0#32, 0#32⟩) = true := by decide +kernel
theorem test_dequant_saturates :
    out (exec (.dequant .prof0) (withArgs State.reset 127 (-128) 0 0 0x7FFFFF9C 0x80000005 0 0))
      (fun t => t.result.c0 == 0x7FFFFFFF#32 && t.result.c1 == 0x80000000#32) = true := by decide +kernel
theorem test_classify :
    out (exec .classify { State.reset with pred := { Predictor.start with var := ⟨30695#32, 44260#32, 15#32, 15#32⟩ } })
      (fun t => t.result == ⟨4#32, 5#32, 0#32, 0#32⟩) = true := by decide +kernel
theorem test_vupd : out (exec .vupd (args 0x400 1 0 0)) (fun t => t.result.c0 == 5056#32) = true := by decide +kernel
theorem test_vupd_top : out (exec .vupd (args 0xFFFFFFFF (-128) 0 0)) (fun t => t.result.c0 == 0xF4000000#32) = true := by
  decide +kernel

/-! ## Block compressor (R384) -/

/-- The three samples of R384, at 0. -/
def threeSamples : List Nat :=
  [0x60, 0xFF, 0xFF, 0x3F, 0, 0, 8, 0, 0, 0, 4, 0, 0, 0, 0, 0] ++ [0x80, 0xFD, 0xFF, 0x3F, 0, 0, 0x10, 0, 0, 0, 8, 0, 0, 0, 0, 0] ++
    [0x60, 0xFA, 0xFF, 0x3F, 0, 0, 0x18, 0, 0, 0, 0xC, 0, 0, 0, 0, 0]

/-- `COMPRESSP 0, 0x000, 3, 0x080, oc, 0x040, kc`. -/
def blockArgs (oc kc : Word) : State :=
  { withArgs State.reset 0 3 0x080 oc 0x040 kc 0 0 with buf := bufWith 0 threeSamples }

theorem test_compress :
    out (exec (.compress .prof0) (blockArgs 32 12))
      (fun t => t.result.c0 == 10#32 && holds t.buf 0x80 [0x0E, 0x00, 0xFE, 0x15, 0x58, 0x2D, 0xB9, 0x45, 0x5A, 0xAC] &&
        holds t.buf 0x40 [0, 8, 4, 0, 0, 0, 0, 0, 0, 0, 0, 0] && t.pred.var == ⟨0x34C#32, 0x3874C#32, 0xE44C#32, 0x34C#32⟩ &&
        t.pred.p1 == ⟨0x3FFFFD80#32, 0x00180000#32, 0x000C0000#32, 0#32⟩ && t.enc.range == 0x45056B20#32) = true := by
  decide +kernel
theorem test_compress_scratch :
    out (exec (.compress .prof0) (blockArgs 32 8))
      (fun t => t.status.errcode == .scratchTooSmall && t.errSample == 2#32 && t.buf == (blockArgs 32 8).buf) = true := by
  decide +kernel

/-- `DECOMPRESSN 0x080, 10, 3, 0x200` on the payload of R384. -/
def payloadArgs : State :=
  { args 0x080 10 3 0x200 with buf := bufWith 0x80 [0x0E, 0x00, 0xFE, 0x15, 0x58, 0x2D, 0xB9, 0x45, 0x5A, 0xAC] }

theorem test_decompress :
    out (exec .decompress payloadArgs)
      (fun t => t.result.c0 == 10#32 && t.dec.code == 0#32 && t.dec.range == 0x45056B20#32 && t.dec.inPtr == 0x08A#32 &&
        holds t.buf 0x210 [0xC0, 0xFE, 0xFF, 0x3F, 0, 0, 0x10, 0] && t.pred.p1.c0 == 0x3FFFFD80#32) = true := by decide +kernel
theorem test_decompress_header :
    out (exec .decompress { payloadArgs with buf := bufWith 0x80 [31] })
      (fun t => t.status.errcode == .badHeader && t.dec == Decoder.reset) = true := by decide +kernel

/-! ## Witnesses: for every obligation with hypotheses, states and operands that meet all of them, clause by clause, at the ends of
their ranges -/

/-- State.reset with these events waiting outside. -/
def waiting (l : List Input) : State := State.reset.withInputs l

/-- State.reset with a command accepted and these events waiting outside. -/
def running (w : Word) (l : List Input) : State := (State.reset.accept w).withInputs l

theorem witness_EncodeOfDecode : decode 0x00000310#32 = .ok (.cdf 3) ∧ decode 0x00002020#32 = .ok (.qmul true) := by decide
theorem witness_LegalWordsAreTheRows :
    (¬∃ r ∈ opcodeRows, 3#32 &&& r.mask = r.pattern) ∧ (running 3 []).status.busy = true ∧ (running 3 []).latch = 3#32 := by decide
theorem witness_StepRunsTheLatchedCommand :
    (running 0x310 []).status.busy = true ∧ decode (running 0x310 []).latch = .ok (.cdf 3) ∧ (running 0x310 []).inputs = [] ∧
      (running 0x310 [.engine, .reset]).inputs = .engine :: [.reset] := by decide
theorem witness_CommandRunsInTwoSteps :
    (waiting [.write 4 4 (encode .vupd)]).status.busy = false ∧
      (waiting [.write 4 4 (encode .vupd)]).inputs = .write 4 (State.reset.baseAddr + 0x004) (encode .vupd) :: [] ∧
      (waiting []).inputs = [] := by decide
theorem witness_IllegalCommandCompletes :
    (running 0xFFFFFFFF []).status.busy = true ∧ (running 0xFFFFFFFF []).inputs = [] ∧
      wellFormedWord (running 0xFFFFFFFF []).latch = false := by decide
theorem witness_RegisterMap_mapped : (∃ row ∈ registerRows, row.offset = 0x000) ∧ regAt 0x0CC = some (.var 3) := by decide
theorem witness_RegisterMap_unmapped :
    ∀ o ∈ [0x018, 0x05C, 0x094, 0x0D0, 0xFFC], o < 0x1000 ∧ o % 4 = 0 ∧ ∀ row ∈ registerRows, row.offset ≠ o := by decide
theorem witness_IntEnRegister :
    (waiting [.write 4 0xC 3]).inputs = .write 4 (State.reset.baseAddr + 0x00C) 3#32 :: [] ∧
      (running 0 [.write 4 8 2]).status.busy = true ∧ regAt 8 = some .status ∧ HostReg.status ≠ .intEn ∧
      (running 0 [.write 4 8 2]).inputs = .write 4 (State.reset.baseAddr + 8) 2#32 :: [] := by decide
theorem witness_OperandRegisters :
    (waiting []).status.busy = false ∧ (waiting [.write 4 0x10 31]).inputs = .write 4 (State.reset.baseAddr + 0x010) 31#32 :: [] ∧
      (waiting [.write 4 0x14 30]).inputs = .write 4 (State.reset.baseAddr + 0x014) 30#32 :: [] := by decide
theorem witness_OperandRegisters_arg :
    (waiting [.write 4 0x20 7]).inputs = .write 4 (State.reset.baseAddr + 0x020 + 4 * (0 : Fin 8).val) 7#32 :: [] ∧
      (waiting [.write 4 0x3C 7]).inputs = .write 4 (State.reset.baseAddr + 0x020 + 4 * (7 : Fin 8).val) 7#32 :: [] := by decide
theorem witness_ReadOnlyRegistersIgnoreWrites :
    ∃ row ∈ registerRows, row.access = .ro ∧ (waiting [.write 4 0xCC 7]).status.busy = false ∧
      (waiting [.write 4 0xCC 7]).inputs = .write 4 (State.reset.baseAddr + row.offset) 7#32 :: [] := by decide
theorem witness_StatusWriteOneToClear :
    (waiting [.write 4 8 0xE]).status.busy = false ∧
      (waiting [.write 4 8 0xE]).inputs = .write 4 (State.reset.baseAddr + 0x008) 0xE#32 :: [] := by decide
theorem witness_WritesWhileBusyAreDropped :
    ∃ row ∈ registerRows, row.reg ≠ .intEn ∧ (running 0 [.write 4 0x10 7]).status.busy = true ∧
      (running 0 [.write 4 0x10 7]).inputs = .write 4 (State.reset.baseAddr + row.offset) 7#32 :: [] := by decide
theorem witness_HostReadsHaveNoSideEffect :
    (∃ row ∈ registerRows, (waiting [.read 4 0]).inputs = .read 4 (State.reset.baseAddr + row.offset) :: [] ∧
      (waiting [.read 4 0]).status.busy = false ∧ row.reg ∈ [.id, .cmd, .status, .intEn, .prof0, .prof1]) ∧
    ∃ row ∈ registerRows, (running 0 [.read 4 0x60]).inputs = .read 4 (State.reset.baseAddr + row.offset) :: [] ∧
      (running 0 [.read 4 0x60]).status.busy = true ∧ row.reg ∉ [.id, .cmd, .status, .intEn, .prof0, .prof1] ∧
      ¬∃ i, row.reg = .arg i := by decide
theorem witness_RefusedHostAccesses :
    (waiting [.read 4 1]).inputs = .read 4 (State.reset.baseAddr + 1) :: [] ∧ ¬(4 = 4 ∧ 1 % 4 = 0) ∧
      (waiting [.write 1 0xFFF 7]).inputs = .write 1 (State.reset.baseAddr + 0xFFF) 7#32 :: [] ∧ ¬(1 = 4 ∧ 0xFFF % 4 = 0) := by decide
theorem witness_RefusedHostAccesses_busy :
    ∀ o ∈ [0x100000, 0x10FFFF], (running 0 [.read 1 o]).inputs = .read 1 (State.reset.baseAddr + o) :: [] ∧ 0x1000 ≤ o ∧
      (running 0 [.read 1 o]).status.busy = true ∧ 0x100000 < o + 1 ∧ o < 0x100000 + State.reset.buf.size := by decide
theorem witness_BufHostAccess :
    ∀ o ∈ [0x100000, 0x10FFFC], (4 ∈ [1, 2, 4] ∧ o % 4 = 0 ∧ 0x100000 ≤ o ∧ o + 4 ≤ 0x100000 + State.reset.buf.size) ∧
      (waiting [.read 4 o]).status.busy = false ∧ (waiting [.read 4 o]).inputs = .read 4 (State.reset.baseAddr + o) :: [] ∧
      (waiting [.write 4 o 7]).inputs = .write 4 (State.reset.baseAddr + o) 7#32 :: [] := by decide
theorem witness_BufHostAccess_misaligned :
    (0x1000 ≤ 0x100001 ∧ 0x100000 < 0x100001 + 2 ∧ 0x100001 < 0x100000 + State.reset.buf.size) ∧
      ¬(2 ∈ [1, 2, 4] ∧ 0x100001 % 2 = 0 ∧ 0x100001 + 2 ≤ 0x100000 + State.reset.buf.size) ∧
      (waiting [.read 2 0x100001]).inputs = .read 2 (State.reset.baseAddr + 0x100001) :: [] := by decide

/-- A core with a BUF of six bytes, and a host write that straddles its end. -/
def smallBuf : State := { waiting [.write 4 0x100004 7] with buf := { size := 6, cells := [], resets := 0 } }

theorem witness_BufHostAccess_straddles :
    smallBuf.status.busy = false ∧ 0x100000 < 0x100004 + 4 ∧ 0x100004 < 0x100000 + smallBuf.buf.size ∧
      ¬(4 ∈ [1, 2, 4] ∧ 0x100004 % 4 = 0 ∧ 0x100004 + 4 ≤ 0x100000 + smallBuf.buf.size) ∧
      smallBuf.inputs = .write 4 (smallBuf.baseAddr + 0x100004) 7#32 :: [] := by decide
theorem witness_MemoryPrimitives : ∀ n ∈ [1, 2, 4], n ∈ [1, 2, 4] ∧ (65536 - n) + n ≤ (bufWith 0 []).size := by decide
theorem witness_MixedWidthAccesses :
    65532 + 4 ≤ (bufWith 0 []).size ∧ ∃ m', memWrite (bufWith 0 []) 65532 4 (0x04030201#32).toNat = some m' := by
  refine ⟨by decide, ?_⟩
  rw [← Option.isSome_iff_exists]
  decide +kernel
theorem witness_ReservedRanges :
    ∀ o ∈ [0x1000, 0xFFFFF, 0x110000, 0x1FFFFF], 0x1000 ≤ o ∧ o < 0x200000 ∧
      (o + 1 ≤ 0x100000 ∨ 0x100000 + State.reset.buf.size ≤ o) ∧
      (waiting [.read 1 o]).inputs = .read 1 (State.reset.baseAddr + o) :: [] ∧
      (waiting [.write 1 o 7]).inputs = .write 1 (State.reset.baseAddr + o) 7#32 :: [] := by decide
theorem witness_ResetInputState : (running 0x50 [.reset]).inputs = .reset :: [] := by decide
theorem witness_StepKeepsInvariant : State.reset.Inv ∧ ∃ t, step State.reset = .next t := ⟨by decide, _, rfl⟩
theorem witness_StepKeepsInvariant_busy :
    (running 0x30 []).Inv ∧ ∃ t, step (running 0x30 []) = .next t ∧ (t.enc.state == .active) = true :=
  ⟨by decide, next_of_out (by decide +kernel)⟩
theorem witness_StepNeverFaults : (running 0x30 []).Inv := by decide

/-- A committed predictor state other than the stream-start one, with one event or command pending. -/
def moved (s : State) : State := s.withPred { Predictor.start with var := Quad.all 15#32 }

theorem witness_PredictorChangesInFourCases :
    (∃ t, step (moved (running 2 [])) = .next t ∧ (t.pred != (moved (running 2 [])).pred) = true) ∧
      ∃ t, step (moved (running 0x50 [.reset])) = .next t ∧ (t.pred != (moved (running 0x50 [.reset])).pred) = true :=
  ⟨next_of_out (by decide +kernel), next_of_out (by decide +kernel)⟩
theorem witness_PredictorChangesInFourCases_block :
    ∃ t, step { blockArgs 32 12 with latch := 0x50#32, status := { Status.reset with busy := true } } = .next t ∧
      (t.pred != (blockArgs 32 12).pred && !t.status.err) = true := next_of_out (by decide +kernel)
theorem witness_PredictorChangesInFourCases_error :
    (blockArgs 32 8).accepted ∧ ∃ t, exec (.compress .prof0) (blockArgs 32 8) = .next t ∧ t.status.err = true :=
  ⟨by decide, next_of_out (by decide +kernel)⟩
theorem witness_CommandsKeepTheHostsRegisters :
    (∃ t, exec .encInit (args 0x100 64 0 0) = .next t ∧ (t.enc.state == .active) = true) ∧ Instr.encInit ≠ .srst :=
  ⟨next_of_out (by decide +kernel), by decide⟩
theorem witness_CompletionReport :
    opened.accepted ∧ (∃ t, exec .encFlush opened = .next t ∧ (!t.status.err) = true) ∧
      State.reset.accepted ∧ ∃ t, exec .encFlush State.reset = .next t ∧ t.status.err = true :=
  ⟨by decide +kernel, next_of_out (by decide +kernel), by decide, next_of_out (by decide +kernel)⟩
theorem witness_UnlistedResultsAreKept :
    (∃ t, exec (.icdf 0) (args 32641 0 0 0) = .next t ∧ (t.result.c0 == 1#32) = true) ∧ Instr.icdf 0 ≠ .srst ∧
      resultCount (.icdf 0) ≤ (3 : Fin 4).val := ⟨next_of_out (by decide +kernel), by decide, by decide⟩
theorem witness_ErrorCodesAndSites :
    heldBack.accepted ∧ (∃ t, exec (.encSymb 15) (withArgs heldBack 87 0 0 0 0 0 0 0) = .next t ∧ t.status.err = true) ∧
      decode 3#32 = .error (.unassignedOpcode 3) := ⟨by decide +kernel, next_of_out (by decide +kernel), by decide⟩
theorem witness_CoderStateTransitions :
    (∃ t, exec .encInit (args 0x100 64 0 0) = .next t ∧ (t.enc.state == .active) = true) ∧ (args 0x100 64 0 0).accepted ∧
      needsEncoder .encInit = false ∧ needsDecoder .encInit = false :=
  ⟨next_of_out (by decide +kernel), by decide, by decide, by decide⟩
theorem witness_CoderStateTransitions_notReady :
    (needsEncoder .encFlush = true ∧ State.reset.enc.state ≠ .active) ∧ needsDecoder .decVal = true ∧
      State.reset.dec.state ≠ .active := by decide
theorem witness_CoderStateTransitions_step :
    (∃ t, step (running 0x30 []) = .next t ∧ (t.enc.state != (running 0x30 []).enc.state) = true) ∧
      ∃ t, step (running 0x30 [.engine]) = .next t ∧ (t.enc.state != (running 0x30 [.engine]).enc.state) = true :=
  ⟨next_of_out (by decide +kernel), next_of_out (by decide +kernel)⟩
theorem witness_CommandFrames :
    (∃ t, exec .decVal decoding = .next t ∧ (t.result.c0 == 22519#32) = true) ∧ writesEncoder .decVal = false ∧
      writesDecoder .decVal = false ∧ writesPredictor .decVal = false ∧ writesBuffer .decVal = false :=
  ⟨next_of_out (by decide +kernel), by decide⟩
theorem witness_EncoderStores :
    needsEncoder .encFlush = true ∧ (∃ t, exec .encFlush opened = .next t ∧ (t.enc.outPtr == 0x105#32) = true) ∧
      u32 opened.enc.outPtr ≤ u32 opened.enc.outEnd := ⟨by decide, next_of_out (by decide +kernel), by decide +kernel⟩
theorem witness_InterruptLine :
    State.reset.accepted ∧ (∃ t, exec .decVal State.reset = .next t ∧ t.status.err = true) ∧
      (∃ t, exec .srst State.reset = .next t ∧ t.status.done = true) ∧ (running 0 []).Inv ∧ (running 0 []).status.busy = true :=
  ⟨by decide, next_of_out (by decide +kernel), next_of_out (by decide +kernel), by decide, by decide⟩
theorem witness_CdfAndFreqResults :
    s32 (args (-129) 0 0 0).argLo.c0 = -129 ∧ s32 (args (-128) 0 0 0).argLo.c0 = -128 ∧ s32 (args (-127) 0 0 0).argLo.c0 = -127 ∧
      s32 (args 127 0 0 0).argLo.c0 = 127 ∧ s32 (args 128 0 0 0).argLo.c0 = 128 ∧ s32 (args 129 0 0 0).argLo.c0 = 129 := by decide
theorem witness_IcdfResult : u32 (args 0 0 0 0).argLo.c0 < 32768 ∧ u32 (args 32767 0 0 0).argLo.c0 < 32768 ∧
    32768 ≤ u32 (args 32768 0 0 0).argLo.c0 := by decide
theorem witness_BucketResults_v2b :
    u32 (args 0x7FF 0 0 0).argLo.c0 < 2 ^ 11 ∧ (2 ^ 11 ≤ u32 (args 0x800 0 0 0).argLo.c0 ∧ u32 (args 0x800 0 0 0).argLo.c0 < 2 ^ 12) ∧
      2 ^ 31 ≤ u32 (args 0xFFFFFFFF 0 0 0).argLo.c0 ∧ u32 (args 0xFFFFFFFF 0 0 0).argLo.c0 < 2 ^ 32 := by decide
theorem witness_BucketResults_b2v :
    s32 (args (-1) 0 0 0).argLo.c0 < 0 ∧ s32 (args 0 0 0 0).argLo.c0 = (0 : Nat) ∧ s32 (args 16 0 0 0).argLo.c0 = (16 : Nat) := by decide
theorem witness_BucketProperties : 2047 ≤ 2048 ∧ 15 ≤ 15 := by decide

/-- P1 = P2 = the identity: its conjugate product, and that product again. -/
def conjugated : State := withArgs State.reset 0x40000000 0 0 0 0x40000000 0 0 0

theorem witness_PredictAndClassifyResults :
    (conjugated.argLo = State.reset.pred.p1 ∧ conjugated.argHi = State.reset.pred.p2) ∧
      (∃ t, exec (.qmul true) conjugated = .next t ∧ (conjugated.argLo == t.result) = true) ∧
      (∃ t, exec (.qmul false) conjugated = .next t ∧ (t.result == identity) = true) ∧
      (args 0x400 0 0 0).argLo.c0 = State.reset.pred.var.get 3 ∧
      ∃ t, exec .v2b (args 0x400 0 0 0) = .next t ∧ (t.result.c0 == 0#32) = true :=
  ⟨by decide, next_of_out (by decide +kernel), next_of_out (by decide +kernel), by decide, next_of_out (by decide +kernel)⟩

/-- The `q` of QuantResult for a profile of 14 fraction bits. -/
def rounded14 (s : State) (c : Fin 4) : Int := (s32 (s.argLo.get c) - s32 (s.argHi.get c) + 2 ^ 15) / 2 ^ 16

theorem witness_QuantResult_fits :
    ∀ c, -128 ≤ rounded14 (withArgs State.reset 0x7F7FFF 0xFF7F8000 0 0 0 0 0 0) c ∧
      rounded14 (withArgs State.reset 0x7F7FFF 0xFF7F8000 0 0 0 0 0 0) c ≤ 127 := by decide
theorem witness_QuantResult_overflows :
    (∀ d, d < 0 → -128 ≤ rounded14 (args 0x7F8000 0 0 0) d ∧ rounded14 (args 0x7F8000 0 0 0) d ≤ 127) ∧
      ¬(-128 ≤ rounded14 (args 0x7F8000 0 0 0) 0 ∧ rounded14 (args 0x7F8000 0 0 0) 0 ≤ 127) ∧
      (∀ d, d < 3 → -128 ≤ rounded14 (args 0 0 0 0xFF7F7FFF) d ∧ rounded14 (args 0 0 0 0xFF7F7FFF) d ≤ 127) ∧
      ¬(-128 ≤ rounded14 (args 0 0 0 0xFF7F7FFF) 3 ∧ rounded14 (args 0 0 0 0xFF7F7FFF) 3 ≤ 127) := by decide
theorem witness_DequantResult :
    (∀ c, -128 ≤ s32 ((args 127 (-128) 0 0).argLo.get c) ∧ s32 ((args 127 (-128) 0 0).argLo.get c) ≤ 127) ∧
      (∀ d, d < 3 → -128 ≤ s32 ((args 0 0 0 128).argLo.get d) ∧ s32 ((args 0 0 0 128).argLo.get d) ≤ 127) ∧
      ¬(-128 ≤ s32 ((args 0 0 0 128).argLo.get 3) ∧ s32 ((args 0 0 0 128).argLo.get 3) ≤ 127) ∧
      ¬(-128 ≤ s32 ((args (-129) 0 0 0).argLo.get 0)) := by decide
theorem witness_ReconstructionWithinHalfAStep :
    (29 ≤ 30 ∧ quantOverflows (s32 0xFFFFFF00#32) (s32 0#32) 29 = false) ∧
      30 ≤ 30 ∧ quantOverflows (s32 127#32) (s32 0#32) 30 = false ∧ quantOverflows (s32 0x60000000#32) (s32 0#32) 0 = false := by decide
theorem witness_VupdResult :
    s32 (args 0x4000000F (-128) 0 0).argLo.c1 = -128 ∧ s32 (args 0 127 0 0).argLo.c1 = 127 ∧
      u32 (args 0x4000000F (-128) 0 0).argLo.c0 ≤ 2 ^ 30 + 15 ∧ s32 (args 0 128 0 0).argLo.c1 = 128 ∧
      s32 (args 0 (-129) 0 0).argLo.c1 = -129 := by decide
theorem witness_EncInitResult :
    State.reset.buf.size ≤ 2 ^ 20 ∧ u32 (args 65536 0 0 0).argLo.c0 + u32 (args 65536 0 0 0).argLo.c1 ≤ State.reset.buf.size ∧
      u32 (args 65535 1 0 0).argLo.c0 + u32 (args 65535 1 0 0).argLo.c1 ≤ State.reset.buf.size ∧
      State.reset.buf.size < u32 (args 65536 1 0 0).argLo.c0 + u32 (args 65536 1 0 0).argLo.c1 := by decide

theorem opened_inv : opened.buf.Inv ∧ opened.enc.Inv opened.buf.size ∧ opened.enc.state = .active := by decide +kernel
theorem witness_EncodeSymbolResult :
    cdfFn (s32 (args 127 0 0 0).argLo.c0) 0 + freqFn (s32 (args 127 0 0 0).argLo.c0) 0 ≤ 32768 ∧
      1 ≤ freqFn (s32 (args 127 0 0 0).argLo.c0) 0 ∧
      u32 (args 32767 1 0 0).argLo.c0 + u32 (args 32767 1 0 0).argLo.c1 ≤ 32768 ∧
      u32 opened.enc.outPtr + u32 opened.enc.csize + 1 ≤ u32 opened.enc.outEnd ∧
      freqFn (s32 (args 128 0 0 0).argLo.c0) 0 < 1 ∧
      32768 < u32 (args 32767 2 0 0).argLo.c0 + u32 (args 32767 2 0 0).argLo.c1 := by decide +kernel
theorem witness_EncFlushResult :
    opened.buf.Inv ∧ opened.enc.Inv opened.buf.size ∧ opened.enc.state = .active ∧
      u32 opened.enc.outPtr + u32 opened.enc.csize + 4 ≤ u32 opened.enc.outEnd := by decide +kernel
theorem witness_DecInitResult :
    State.reset.buf.size ≤ 2 ^ 20 ∧ u32 (args 65531 5 0 0).argLo.c0 + u32 (args 65531 5 0 0).argLo.c1 ≤ State.reset.buf.size ∧
      u32 (args 65532 4 0 0).argLo.c0 + u32 (args 65532 4 0 0).argLo.c1 ≤ State.reset.buf.size ∧
      u32 (args 65536 0 0 0).argLo.c0 + u32 (args 65536 0 0 0).argLo.c1 ≤ State.reset.buf.size ∧
      State.reset.buf.size < u32 (args 65532 5 0 0).argLo.c0 + u32 (args 65532 5 0 0).argLo.c1 := by decide
theorem witness_DecValResult : decoding.dec.state = .active ∧ 2 ^ 24 ≤ u32 decoding.dec.range := by decide +kernel

/-- Program P2's decoding, over a region with two bytes more. -/
def decodingMore : State := stateOf (exec .decInit { coded with argLo := ⟨0x100#32, 7#32, 0#32, 0#32⟩ })

theorem witness_DecodeSymbolResult :
    decodingMore.buf.Inv ∧ decodingMore.dec.Inv decodingMore.buf.size ∧ decodingMore.dec.state = .active ∧
      u32 decodingMore.dec.inPtr + 2 ≤ u32 decodingMore.dec.inEnd := by decide +kernel
theorem witness_DecodeSymbolResult_symb :
    cdfFn 0 6 ≤ min (u32 decodingMore.dec.code / (u32 decodingMore.dec.range / 2 ^ 15)) 32767 ∧
      min (u32 decodingMore.dec.code / (u32 decodingMore.dec.range / 2 ^ 15)) 32767 < cdfFn 0 6 + freqFn 0 6 := by decide +kernel
theorem witness_DecodeSymbolResult_consume : 1 ≤ 32768 ∧ 0 + 32768 ≤ 32768 ∧ 1 ≤ 1 ∧ 32767 + 1 ≤ 32768 := by decide

/-- The outcome, and that it succeeded. -/
theorem succeeded_of_out {r : Result} (h : (out r fun t => !t.status.err) = true) : r.succeededIn (stateOf r) := by
  cases r with
  | next t => exact ⟨rfl, by simpa [out, stateOf] using h⟩
  | fault f => cases h
  | refused f => cases h

/-- The state after ENC_INIT in RangeCoderRoundTrip. -/
def rtOpened : State := stateOf ((args 0x100 64 0 0).issue .encInit)

/-- The state after the symbol 0 in bucket 6 (R281, program P2). -/
def rtSymbol : State := stateOf (encodeItem rtOpened (.symbol 6 0))

/-- The state after the interval [128, 32641) too. -/
def rtBoth : State := stateOf (encodeItem rtSymbol (.interval 128 32513))

theorem witness_RangeCoderRoundTrip :
    (args 0x100 64 0 0).buf.Inv ∧ ((args 0x100 64 0 0).issue .encInit).succeededIn rtOpened ∧
      encodesTo rtOpened rtBoth [.symbol 6 0, .interval 128 32513] ∧
      (rtBoth.issue .encFlush).succeededIn (stateOf (rtBoth.issue .encFlush)) :=
  ⟨by decide, succeeded_of_out (by decide +kernel),
    ⟨rtSymbol, succeeded_of_out (by decide +kernel), rtBoth, succeeded_of_out (by decide +kernel), rfl⟩,
    succeeded_of_out (by decide +kernel)⟩
theorem witness_RangeCoderRoundTrip_legal :
    ∀ i ∈ [CodeItem.symbol 6 0, .interval 128 32513, .symbol 0 (-128), .symbol 15 127, .interval 0 32768], i.legal := by
  simp only [List.forall_mem_cons, CodeItem.legal, List.not_mem_nil, false_imp_iff, implies_true]
  decide

theorem blockArgs_checked (oc kc : Word) (ho : u32 oc ≤ 32) (hk : u32 kc ≤ 64) : compressChecked (blockArgs oc kc) := by
  have e : compressChecked (blockArgs oc kc) = (0 + 16 * 3 ≤ 65536 ∧ 0x80 + u32 oc ≤ 65536 ∧ 0x40 + u32 kc ≤ 65536 ∧
    ¬overlap 0 (16 * 3) 0x80 (u32 oc) ∧ ¬overlap 0 (16 * 3) 0x40 (u32 kc) ∧ ¬overlap 0x80 (u32 oc) 0x40 (u32 kc)) := rfl
  rw [e]
  unfold overlap
  omega
theorem witness_BlockChecks_compress :
    ¬compressChecked (withArgs State.reset 65536 1 0 0 0 4 0 0) ∧ compressChecked (blockArgs 32 11) ∧
      (blockArgs 32 11).argU 5 < 4 * (blockArgs 32 11).argU 1 := by
  refine ⟨?_, blockArgs_checked 32 11 (by decide) (by decide), by decide⟩
  unfold compressChecked overlap
  decide

/-- DECOMPRESS's operands for an input region at 0 of il bytes, n samples and samples at 0x20. -/
def unpackArgs (il n : Word) (l : List Nat) : State := { args 0 il n 0x20 with buf := bufWith 0 l }

theorem witness_BlockChecks_decompress :
    ¬decompressChecked (unpackArgs 33 1 []) ∧ (decompressChecked (unpackArgs 0 1 []) ∧ (unpackArgs 0 1 []).argU 1 = 0) ∧
      decompressChecked (unpackArgs 1 0 [31]) ∧ 1 ≤ (unpackArgs 1 0 [31]).argU 1 ∧
      30 < ((unpackArgs 1 0 [31]).buf.byte ((unpackArgs 1 0 [31]).argU 0)).toNat := by
  unfold decompressChecked overlap
  refine ⟨by decide, by decide, by decide, by decide, by decide +kernel⟩
theorem witness_CompressResult :
    (blockArgs 32 12).buf.Inv ∧ compressChecked (blockArgs 32 12) ∧ 4 * (blockArgs 32 12).argU 1 ≤ (blockArgs 32 12).argU 5 ∧
      6 + 8 * (blockArgs 32 12).argU 1 ≤ (blockArgs 32 12).argU 3 ∧
      ∃ qs, blockSymbols ((blockArgs 32 12).profile .prof0) (blockArgs 32 12).pred
        ((blockArgs 32 12).buf.samples ((blockArgs 32 12).argU 0) ((blockArgs 32 12).argU 1) 0) = some qs := by
  refine ⟨by decide +kernel, blockArgs_checked 32 12 (by decide) (by decide), by decide, by decide, ?_⟩
  rw [← Option.isSome_iff_exists]
  decide +kernel

/-- A block of no sample, with an output of exactly six bytes. -/
def emptyBlock : State := withArgs State.reset 0 0 0x80 6 0 0 0 0

theorem witness_CompressResult_empty :
    emptyBlock.buf.Inv ∧ compressChecked emptyBlock ∧ 4 * emptyBlock.argU 1 ≤ emptyBlock.argU 5 ∧
      6 + 8 * emptyBlock.argU 1 ≤ emptyBlock.argU 3 ∧
      blockSymbols (emptyBlock.profile .prof0) emptyBlock.pred (emptyBlock.buf.samples (emptyBlock.argU 0) (emptyBlock.argU 1) 0)
        = some [] := by
  unfold compressChecked overlap
  refine ⟨by decide, by decide, by decide, by decide, by decide⟩
theorem witness_CompressSize :
    (blockArgs 30 12).buf.Inv ∧ (blockArgs 30 12).accepted ∧ 6 + 8 * (blockArgs 30 12).argU 1 ≤ (blockArgs 30 12).argU 3 ∧
      1 ≤ (blockArgs 30 12).argU 1 ∧ ∃ t, exec (.compress .prof0) (blockArgs 30 12) = .next t ∧ (!t.status.err) = true :=
  ⟨by decide +kernel, by decide, by decide, by decide, next_of_out (by decide +kernel)⟩
theorem witness_CompressFailure_quant :
    (blockArgs 32 12).buf.Inv ∧ { blockArgs 32 12 with prof0 := 30 }.accepted ∧
      ∃ t, exec (.compress .prof0) { blockArgs 32 12 with prof0 := 30 } = .next t ∧
        (t.status.err && t.status.errcode == .quantOverflow && t.errSample == 0#32) = true :=
  ⟨by decide +kernel, by decide, next_of_out (by decide +kernel)⟩
theorem witness_CompressFailure_quant_channel :
    { blockArgs 32 12 with prof0 := 20 }.accepted ∧
      ∃ t, exec (.compress .prof0) { blockArgs 32 12 with prof0 := 20 } = .next t ∧
        (t.status.err && t.status.errcode == .quantOverflow && t.errSample == 0#32 && t.errChan == 1#32) = true :=
  ⟨by decide, next_of_out (by decide +kernel)⟩
theorem witness_CompressFailure_noOutput :
    (blockArgs 0 12).buf.Inv ∧ (blockArgs 0 12).accepted ∧ (blockArgs 0 12).argU 3 = 0 ∧
      ∃ t, exec (.compress .prof0) (blockArgs 0 12) = .next t ∧ (t.status.err && t.status.errcode == .outputExhausted) = true :=
  ⟨by decide +kernel, by decide, by decide, next_of_out (by decide +kernel)⟩
theorem witness_CompressFailure_oneByte :
    (blockArgs 1 12).buf.Inv ∧ (blockArgs 1 12).accepted ∧ 1 ≤ (blockArgs 1 12).argU 3 ∧
      ∃ t, exec (.compress .prof0) (blockArgs 1 12) = .next t ∧
        (t.status.err && t.status.errcode == .outputExhausted && t.enc.outPtr == 0x81#32) = true :=
  ⟨by decide +kernel, by decide, by decide, next_of_out (by decide +kernel)⟩
theorem witness_FailedCompressCanBeRetried :
    (blockArgs 4 12).buf.Inv ∧ (blockArgs 4 12).accepted ∧
      ∃ t, exec (.compress .prof0) (blockArgs 4 12) = .next t ∧ t.status.err = true :=
  ⟨by decide +kernel, by decide, next_of_out (by decide +kernel)⟩
theorem witness_DecompressResult :
    (unpackArgs 6 0 [30]).buf.Inv ∧ decompressChecked (unpackArgs 6 0 [30]) ∧
      6 + 8 * (unpackArgs 6 0 [30]).argU 2 ≤ (unpackArgs 6 0 [30]).argU 1 ∧
      ((unpackArgs 6 0 [30]).buf.byte ((unpackArgs 6 0 [30]).argU 0)).toNat ≤ 30 := by
  unfold decompressChecked overlap
  refine ⟨by decide, by decide, by decide, by decide +kernel⟩
theorem witness_DecompressResult_one :
    (unpackArgs 14 1 [0]).buf.Inv ∧ decompressChecked (unpackArgs 14 1 [0]) ∧
      6 + 8 * (unpackArgs 14 1 [0]).argU 2 ≤ (unpackArgs 14 1 [0]).argU 1 ∧
      ((unpackArgs 14 1 [0]).buf.byte ((unpackArgs 14 1 [0]).argU 0)).toNat ≤ 30 := by
  unfold decompressChecked overlap
  refine ⟨by decide, by decide, by decide, by decide +kernel⟩
theorem witness_DecompressExhaustion_before :
    (unpackArgs 0 1 []).buf.Inv ∧ (unpackArgs 0 1 []).accepted ∧
      ∃ t, exec .decompress (unpackArgs 0 1 []) = .next t ∧
        (t.status.errcode == .inputExhausted && t.errSample == na) = true :=
  ⟨by decide, by decide, next_of_out (by decide +kernel)⟩
theorem witness_DecompressExhaustion_symbol :
    { payloadArgs with argLo := ⟨0x80#32, 8#32, 3#32, 0x200#32⟩ }.accepted ∧ payloadArgs.buf.Inv ∧
      ∃ t, exec .decompress { payloadArgs with argLo := ⟨0x80#32, 8#32, 3#32, 0x200#32⟩ } = .next t ∧
        (t.status.errcode == .inputExhausted && t.errSample != na) = true :=
  ⟨by decide, by decide +kernel, next_of_out (by decide +kernel)⟩

/-- The encoder's core after R384's COMPRESS. -/
def compressed : State := stateOf (exec (.compress .prof0) (blockArgs 32 12))

theorem witness_BlockRoundTrip :
    payloadArgs.buf.Inv ∧ payloadArgs.accepted ∧ (blockArgs 32 12).pred = payloadArgs.pred ∧
      exec (.compress .prof0) (blockArgs 32 12) = .next compressed ∧ compressed.status.err = false ∧
      payloadArgs.argU 2 = (blockArgs 32 12).argU 1 ∧ u32 compressed.result.c0 ≤ payloadArgs.argU 1 := by
  refine ⟨by decide +kernel, by decide, by decide, ?_, by decide +kernel, by decide, by decide +kernel⟩
  exact (succeeded_of_out (by decide +kernel)).1
theorem witness_BlockRoundTrip_payload :
    decompressChecked payloadArgs ∧
      ∀ k, k < 10 → payloadArgs.buf.byte (payloadArgs.argU 0 + k) = compressed.buf.byte ((blockArgs 32 12).argU 2 + k) := by
  refine ⟨?_, by decide +kernel⟩
  unfold decompressChecked overlap
  decide

end Tests
end Sys2Proof
end

section
/-! SUPPORT. How a computation ends: a predicate over its answer and over what it leaves at a raise, with one rule per way of
composing computations, so that what the functions of the block commands keep is proved by following their text. -/

namespace Sys2Proof
namespace Machine

/-- A computation completes with `ok` of its answer, or raises with `raised` of the code and the part of the state at the raise.
Nothing is said of one that meets an address that does not exist. -/
def Ends {π α : Type} (ok : α → Prop) (raised : ErrorCode → π → Prop) : Except (Stop π) α → Prop
  | .ok a => ok a
  | .error (.raised e _ p) => raised e p
  | .error (.noByte _) => True

theorem ends_iff {π α : Type} {P : α → Prop} {E : ErrorCode → π → Prop} {x : Except (Stop π) α} :
    Ends P E x ↔ (∀ a, x = .ok a → P a) ∧ ∀ e site p, x = .error (.raised e site p) → E e p := by
  rcases x with (⟨e, site, p⟩ | a) | a <;> simp [Ends]

theorem ends_mono {π α : Type} {P Q : α → Prop} {E F : ErrorCode → π → Prop} {x : Except (Stop π) α} (h : Ends P E x)
    (hok : ∀ a, P a → Q a) (herr : ∀ e p, E e p → F e p) : Ends Q F x := by
  obtain ⟨h1, h2⟩ := ends_iff.1 h
  exact ends_iff.2 ⟨fun a ha => hok a (h1 a ha), fun e site p hp => herr e p (h2 e site p hp)⟩

theorem ends_bind {π α β : Type} {P : α → Prop} {Q : β → Prop} {E : ErrorCode → π → Prop} {x : Except (Stop π) α}
    {f : α → Except (Stop π) β} (h : Ends P E x) (k : ∀ a, P a → Ends Q E (f a)) : Ends Q E (x.bind f) := by
  rcases x with (⟨e, site, p⟩ | a) | a
  · exact h
  · exact trivial
  · exact k a h

theorem ends_and {π α : Type} {P Q : α → Prop} {E F : ErrorCode → π → Prop} {x : Except (Stop π) α} (h : Ends P E x)
    (k : Ends Q F x) : Ends (fun a => P a ∧ Q a) (fun e p => E e p ∧ F e p) x := by
  rcases x with (⟨e, site, p⟩ | a) | a
  · exact ⟨h, k⟩
  · exact trivial
  · exact ⟨h, k⟩

theorem ends_imp {π α : Type} {H : Prop} {P : α → Prop} {E : ErrorCode → π → Prop} {x : Except (Stop π) α}
    (h : H → Ends P E x) : Ends (fun a => H → P a) (fun e p => H → E e p) x := by
  rcases x with (⟨e, site, p⟩ | a) | a
  · exact h
  · exact trivial
  · exact h

theorem ends_map {π α β : Type} {P : α → Prop} {Q : β → Prop} {E : ErrorCode → π → Prop} {x : Except (Stop π) α} {f : α → β}
    (h : Ends P E x) (k : ∀ a, P a → Q (f a)) : Ends Q E (x.map f) := by
  rcases x with (⟨e, site, p⟩ | a) | a
  · exact h
  · exact trivial
  · exact k a h

theorem ends_liftStop {π ρ α : Type} {P : α → Prop} {E : ErrorCode → ρ → Prop} {x : Except (Stop π) α} {f : π → ρ}
    (h : Ends P (fun e p => E e (f p)) x) : Ends P E (liftStop f x) := by
  rcases x with (⟨e, site, p⟩ | a) | a <;> exact h

theorem ends_orNoByte {π α : Type} {P : α → Prop} {E : ErrorCode → π → Prop} {addr : Nat} {o : Option α}
    (h : ∀ a, o = some a → P a) : Ends P E (orNoByte addr o : Except (Stop π) α) := by
  cases o with
  | none => exact trivial
  | some a => exact h a rfl

/-- The codes that an error completion can carry: not 0 (R36), and not the one that is "never raised" (R405). -/
def Raisable (e : ErrorCode) : Prop := e ≠ .none ∧ e ≠ .modelInvariant

/-- What every write of the engine keeps of BUF: BUF_SIZE, the count of resets, and the canonical form. -/
structure BufKept (m m' : Buf) : Prop where
  size : m'.size = m.size
  resets : m'.resets = m.resets
  wf : m.wf = true → m'.wf = true

theorem bufKept_refl (m : Buf) : BufKept m m := ⟨rfl, rfl, id⟩

theorem bufKept_trans {m m' m'' : Buf} (h : BufKept m m') (k : BufKept m' m'') : BufKept m m'' :=
  ⟨k.size.trans h.size, k.resets.trans h.resets, k.wf ∘ h.wf⟩

theorem store_bufKept {m m' : Buf} {a : Nat} {v : Byte} (h : m.store a v = some m') : BufKept m m' :=
  ⟨store_size h, store_resets h, store_wf h⟩

theorem memWrite_bufKept {m m' : Buf} {a n v : Nat} (h : memWrite m a n v = some m') : BufKept m m' := by
  obtain ⟨-, hs, hr, hw, -⟩ := memWrite_eq_some h
  exact ⟨hs, hr, hw⟩

theorem encGrows_bufKept {p q : EncPort} (h : EncGrows p q) : BufKept p.buf q.buf := ⟨h.size, h.resets, h.wf⟩

end Machine
end Sys2Proof
end

section
/-! SUPPORT. The intervals that the coders are given: every symbol's interval in every table is inside [0, 32768] and not empty
(20_memory.md R108, 41_variance_model.md R201 to R203), and the bound on the variance estimates (44_predictor.md R325). -/

namespace Sys2Proof
namespace Machine

/-! ## The tables -/

theorem rom_first : ∀ b : Bucket, rom b 0 = 0 := by decide +kernel

theorem rom_last : ∀ b : Bucket, rom b 256 = Config.total := by decide +kernel

theorem rom_lt_rom {b : Bucket} {j k : Nat} (h : j < k) (hk : k ≤ 256) : rom b j < rom b k := by
  have hl := romEntries_length b
  have := List.pairwise_iff_getElem.1 (romEntries_rising b) j k (by omega) (by omega) h
  rwa [romEntries_get, romEntries_get] at this

theorem rom_le_total {b : Bucket} {j : Nat} (h : j ≤ 256) : rom b j ≤ Config.total := by
  rcases Nat.lt_or_eq_of_le h with h | rfl
  · exact rom_last b ▸ (rom_lt_rom h (Nat.le_refl _)).le
  · exact (rom_last b).le

theorem cdfFn_le_total (x : Int) (b : Bucket) : cdfFn x b ≤ Config.total := by
  unfold cdfFn
  split
  · exact Nat.zero_le _
  · split
    · exact rom_le_total (by omega)
    · exact Nat.le_refl _

/-- An interval with a frequency is inside [0, 32768] (R202). -/
theorem cdfFn_add_freqFn_le {x : Int} {b : Bucket} (h : 1 ≤ freqFn x b) : cdfFn x b + freqFn x b ≤ Config.total := by
  have := cdfFn_le_total (x + 1) b
  unfold freqFn at h ⊢
  omega

theorem isSymbol_iff {q : Int} : isSymbol q = true ↔ -128 ≤ q ∧ q ≤ 127 := by
  simp [isSymbol]

/-- Every symbol has a frequency in every table (R108, R202). -/
theorem one_le_freqFn {x : Int} (b : Bucket) (h : isSymbol x = true) : 1 ≤ freqFn x b := by
  rw [isSymbol_iff] at h
  have hlt : rom b (x + 128).toNat < rom b (x + 1 + 128).toNat := rom_lt_rom (by omega) (by omega)
  unfold freqFn
  rw [cdfFn_of_mem b (by omega) (by omega), cdfFn_of_mem b (by omega) (by omega)]
  omega

/-- `icdf_fn` answers a symbol (R203). -/
theorem isSymbol_icdfFn {y : Nat} (b : Bucket) (h : y < Config.total) : isSymbol (icdfFn y b) = true := by
  have hl := romEntries_length b
  obtain ⟨-, hcount⟩ := countUpTo_spec (romEntries_rising b) y
  have hfirst : 0 < countUpTo y (romEntries b) := by
    rw [hcount 0 (by omega), romEntries_get, rom_first]
    exact Nat.zero_le _
  have hlast : ¬256 < countUpTo y (romEntries b) := by
    rw [hcount 256 (by omega), romEntries_get, rom_last]
    omega
  rw [isSymbol_iff, icdfFn]
  omega

/-- A byte read as a symbol is one (R87). -/
theorem isSymbol_s8 (v : Byte) : isSymbol (s8 v) = true := by
  have h1 := BitVec.le_toInt v
  have h2 := BitVec.toInt_lt (x := v)
  rw [isSymbol_iff, s8]
  omega

/-- `dec_val_fn` answers a value below 32768 (R292). -/
theorem decValFn_lt (d : Decoder) : decValFn d < Config.total := by
  simp only [decValFn, Config.total]
  omega

/-! ## The variance estimates -/

/-- The bound of R325 on four estimates: `Predictor.Inv` of a predictor is this of its VAR. -/
def VarsBounded (var : Quad Word) : Prop := ∀ c : Fin 4, u32 (var.get c) ≤ 2 ^ 30 + 15

theorem quad_get_set {α : Type} (q : Quad α) (c d : Fin 4) (v : α) : (q.set c v).get d = if d = c then v else q.get d := by
  fin_cases c <;> fin_cases d <;> rfl

theorem quad_get_set_of_lt {α : Type} {q : Quad α} {c d : Fin 4} (v : α) (h : c.val < d.val) : (q.set c v).get d = q.get d := by
  rw [quad_get_set, if_neg (by rintro rfl; exact Nat.lt_irrefl _ h)]

theorem u32_toWord {v : Int} (h0 : 0 ≤ v) (h1 : v < 2 ^ 32) : (u32 (toWord v) : Int) = v := by
  simp only [u32, toWord, BitVec.toNat_ofInt]
  omega

/-- A symbol's update keeps an estimate within the bound of R325. -/
theorem updateVar_le {v : Word} {q : Int} (hv : u32 v ≤ 2 ^ 30 + 15) (hq : isSymbol q = true) :
    u32 (updateVar v q) ≤ 2 ^ 30 + 15 := by
  obtain ⟨hlo, hhi⟩ := isSymbol_iff.1 hq
  have hsq0 : 0 ≤ q * q := mul_self_nonneg q
  have hsq1 : q * q ≤ 128 * 128 := by nlinarith
  have hval : vupdFn (u32 v) q = (u32 v : Int) - (u32 v : Int) / 16 + q * q * 4096 := rfl
  have := u32_toWord (v := vupdFn (u32 v) q) (by omega) (by omega)
  unfold updateVar
  omega

theorem varsBounded_set {var : Quad Word} {q : Int} (c : Fin 4) (h : VarsBounded var) (hq : isSymbol q = true) :
    VarsBounded (var.set c (updateVar (var.get c) q)) := by
  intro d
  rw [quad_get_set]
  split
  · exact updateVar_le (h c) hq
  · exact h d

end Machine
end Sys2Proof
end

section
/-! SUPPORT. What every function of the range encoder keeps of a running encoder, and every function of the range decoder of a
running decoder: the pointers inside their region and the interval of 43_range_coder.md R272 and R273. -/

namespace Sys2Proof
namespace Machine

/-! ## The encoder -/

/-- The encoder's pointers are in order inside BUF (R47): the part of `Encoder.Inv` that holds in every encoder state. -/
def Encoder.PtrsInside (size : Nat) (e : Encoder) : Prop :=
  u32 e.outBase ≤ u32 e.outPtr ∧ u32 e.outPtr ≤ u32 e.outEnd ∧ u32 e.outEnd ≤ size

/-- The full interval [0, 2^32 - 1) that a coder starts with is wide enough (R273, R277, R291). -/
theorem rcTop_le_fullRange : Config.rcTop ≤ u32 0xFFFFFFFF#32 := by decide

/-- From p0 to p the encoder ran and is still ACTIVE, with an open interval of at least 2^24 (R272, R273). -/
structure EncRuns (p0 p : EncPort) : Prop where
  grows : EncGrows p0 p
  active : p.enc.state = .active
  wide : Config.rcTop ≤ u32 p.enc.range
  opened : EncOpen (u32 p.enc.range) p

/-- From p to q an encoder function ran and raised (R282). -/
def EncFails (p : EncPort) (e : ErrorCode) (q : EncPort) : Prop :=
  e = .outputExhausted ∧ q.enc.state = .failed ∧ EncGrows p q

theorem encoder_inv_ptrs {size : Nat} {e : Encoder} (h : e.Inv size) : e.PtrsInside size := ⟨h.1, h.2.1, h.2.2.1⟩

theorem encoder_inv_of_idle {size : Nat} {e : Encoder} (h : e.PtrsInside size) (hs : e.state ≠ .active) : e.Inv size :=
  ⟨h.1, h.2.1, h.2.2, fun ha => absurd ha hs⟩

theorem encGrows_ptrsInside {p q : EncPort} {size : Nat} (h : EncGrows p q) (hp : p.enc.PtrsInside size) :
    q.enc.PtrsInside size := by
  obtain ⟨hb, he, hs⟩ := hp
  have hptr := h.ptr
  have hbound := h.bound
  refine ⟨?_, ?_, ?_⟩
  · rw [h.base]; omega
  · rw [h.stop]; omega
  · rwa [h.stop]

/-- An ACTIVE encoder that meets the invariant runs. -/
theorem encRuns_of_inv {p : EncPort} {size : Nat} (h : p.enc.Inv size) (ha : p.enc.state = .active) : EncRuns p p := by
  obtain ⟨hb, -, -, hact⟩ := h
  obtain ⟨hwide, hwidth, hheld, hcarry⟩ := hact ha
  exact ⟨encGrows_refl p, ha, hwide, hb, hheld, hwidth, hcarry⟩

theorem EncRuns.inv {p q : EncPort} {size : Nat} (h : EncRuns p q) (hp : p.enc.PtrsInside size) : q.enc.Inv size := by
  obtain ⟨hb, he, hs⟩ := encGrows_ptrsInside h.grows hp
  exact ⟨hb, he, hs, fun _ => ⟨h.wide, h.opened.width, h.opened.held, h.opened.carry⟩⟩

theorem EncFails.inv {p q : EncPort} {e : ErrorCode} {size : Nat} (h : EncFails p e q) (hp : p.enc.PtrsInside size) :
    q.enc.Inv size := by
  obtain ⟨-, hs, hg⟩ := h
  exact encoder_inv_of_idle (encGrows_ptrsInside hg hp) (by simp [hs])

theorem EncFails.raisable {p q : EncPort} {e : ErrorCode} (h : EncFails p e q) : Raisable e := by
  obtain ⟨rfl, -⟩ := h
  exact ⟨by simp, by simp⟩

theorem encFails_of_grows {p q r : EncPort} {e : ErrorCode} (h : EncGrows p q) (k : EncFails q e r) : EncFails p e r :=
  ⟨k.1, k.2.1, encGrows_trans h k.2.2⟩

theorem encFails_of_stops {site site' : Site} {p q : EncPort} {e : ErrorCode} (h : EncStops site p (.raised e site' q)) :
    EncFails p e q := ⟨h.1, h.2.2.1, h.2.2.2⟩

/-- encode_fn in every state. -/
theorem encodeFn_ends (site : Site) (cum fr : Nat) (p : EncPort) : Ends (EncGrows p) (EncFails p) (encodeFn site cum fr p) :=
  ends_iff.2 ⟨fun _ h => encodeFn_grows h, fun _ _ _ h => encFails_of_stops (encodeFn_stops h)⟩

/-- flush_fn in every state. -/
theorem flushFn_ends (site : Site) (p : EncPort) : Ends (EncGrows p) (EncFails p) (flushFn site p) :=
  ends_iff.2 ⟨fun _ h => flushFn_grows h, fun _ _ _ h => encFails_of_stops (flushFn_stops h)⟩

/-- encode_fn of an interval keeps an encoder running (R273, R276). -/
theorem encodeFn_runs {site : Site} {cum fr : Nat} {p0 p : EncPort} (h : EncRuns p0 p) (hf : 1 ≤ fr)
    (hc : cum + fr ≤ Config.total) : Ends (EncRuns p0) (EncFails p0) (encodeFn site cum fr p) := by
  refine ends_iff.2 ⟨fun q hq => ?_, fun e site' q hq => encFails_of_grows h.grows (encFails_of_stops (encodeFn_stops hq))⟩
  obtain ⟨-, -, -, hwide, -, -, -, hopen, hstate⟩ := encodeFn_value h.opened h.wide hf hc hq
  exact ⟨encGrows_trans h.grows (encodeFn_grows hq), hstate.trans h.active, hwide, hopen⟩

theorem flushFn_flushes {site : Site} {p0 p : EncPort} (h : EncGrows p0 p) :
    Ends (EncGrows p0) (EncFails p0) (flushFn site p) :=
  ends_mono (flushFn_ends site p) (fun _ hq => encGrows_trans h hq) fun _ _ hq => encFails_of_grows h hq

/-- An encoder that was just started runs (R277, R361). -/
theorem encRuns_encoderStart (base stop : Nat) (m : Buf) :
    EncRuns ⟨encoderStart base stop, m⟩ ⟨encoderStart base stop, m⟩ where
  grows := encGrows_refl _
  active := rfl
  wide := rcTop_le_fullRange
  opened := ⟨Nat.le_refl _, by simp [encoderStart, u32], by simp [encoderStart, u32], by simp [encoderStart]⟩

theorem encoderStart_ptrsInside {base stop size : Nat} (h : base ≤ stop) (hs : stop ≤ size) (hm : size ≤ Config.bufSizeMax) :
    (encoderStart base stop).PtrsInside size := by
  simp only [Config.bufSizeMax] at hm
  have hb : u32 (BitVec.ofNat 32 base) = base := u32_ofNat (by omega)
  have he : u32 (BitVec.ofNat 32 stop) = stop := u32_ofNat (by omega)
  simp only [Encoder.PtrsInside, encoderStart, hb, he]
  omega

/-! ## The decoder -/

/-- The decoder's pointers are in order inside BUF (R49): the part of `Decoder.Inv` that holds in every decoder state. -/
def Decoder.PtrsInside (size : Nat) (d : Decoder) : Prop :=
  u32 d.inBase ≤ u32 d.inPtr ∧ u32 d.inPtr ≤ u32 d.inEnd ∧ u32 d.inEnd ≤ size

/-- From d0 to d the decoder ran and is still ACTIVE, with a range of at least 2^24 (R273). -/
structure DecRuns (d0 d : Decoder) : Prop where
  reads : DecReads d0 d
  active : d.state = .active
  wide : Config.rcTop ≤ u32 d.range

/-- From d to e a decoder function ran and raised (R298). -/
def DecFails (d : Decoder) (c : ErrorCode) (e : Decoder) : Prop :=
  c = .inputExhausted ∧ e.state = .failed ∧ DecReads d e

theorem decoder_inv_ptrs {size : Nat} {d : Decoder} (h : d.Inv size) : d.PtrsInside size := ⟨h.1, h.2.1, h.2.2.1⟩

theorem decoder_inv_of_idle {size : Nat} {d : Decoder} (h : d.PtrsInside size) (hs : d.state ≠ .active) : d.Inv size :=
  ⟨h.1, h.2.1, h.2.2, fun ha => absurd ha hs⟩

theorem decReads_ptrsInside {d e : Decoder} {size : Nat} (h : DecReads d e) (hd : d.PtrsInside size) : e.PtrsInside size := by
  obtain ⟨hb, he, hs⟩ := hd
  have hptr := h.ptr
  have hbound := h.bound
  refine ⟨?_, ?_, ?_⟩
  · rw [h.base]; omega
  · rw [h.stop]; omega
  · rwa [h.stop]

/-- An ACTIVE decoder that meets the invariant runs. -/
theorem decRuns_of_inv {d : Decoder} {size : Nat} (h : d.Inv size) (ha : d.state = .active) : DecRuns d d :=
  ⟨decReads_refl d, ha, h.2.2.2 ha⟩

theorem DecRuns.inv {d e : Decoder} {size : Nat} (h : DecRuns d e) (hd : d.PtrsInside size) : e.Inv size := by
  obtain ⟨hb, he, hs⟩ := decReads_ptrsInside h.reads hd
  exact ⟨hb, he, hs, fun _ => h.wide⟩

theorem DecFails.inv {d e : Decoder} {c : ErrorCode} {size : Nat} (h : DecFails d c e) (hd : d.PtrsInside size) :
    e.Inv size := by
  obtain ⟨-, hs, hr⟩ := h
  exact decoder_inv_of_idle (decReads_ptrsInside hr hd) (by simp [hs])

theorem DecFails.raisable {d e : Decoder} {c : ErrorCode} (h : DecFails d c e) : Raisable c := by
  obtain ⟨rfl, -⟩ := h
  exact ⟨by simp, by simp⟩

theorem decFails_of_reads {d e f : Decoder} {c : ErrorCode} (h : DecReads d e) (k : DecFails e c f) : DecFails d c f :=
  ⟨k.1, k.2.1, decReads_trans h k.2.2⟩

theorem decFails_of_stops {site site' : Site} {m : Buf} {d e : Decoder} {c : ErrorCode}
    (h : DecStops site m d (.raised c site' e)) : DecFails d c e := ⟨h.1, h.2.2.1, h.2.2.2.1⟩

/-- consume_fn in every state. -/
theorem consumeFn_ends (site : Site) (m : Buf) (cum fr : Nat) (d : Decoder) :
    Ends (DecReads d) (DecFails d) (consumeFn site m cum fr d) :=
  ends_iff.2 ⟨fun _ h => consumeFn_reads h, fun _ _ _ h => decFails_of_stops (consumeFn_stops h)⟩

/-- A byte into DEC_CODE keeps a decoder running (R290). -/
theorem takeByte_runs {site : Site} {m : Buf} {d0 d : Decoder} (h : DecRuns d0 d) :
    Ends (DecRuns d0) (DecFails d0) (takeByte site m d) := by
  refine ends_iff.2 ⟨fun e he => ?_, fun c site' e he => decFails_of_reads h.reads (decFails_of_stops (takeByte_stops he))⟩
  have hreads := decReads_trans h.reads (takeByte_reads he)
  obtain ⟨-, -, rfl⟩ := takeByte_eq_ok he
  exact ⟨hreads, h.active, h.wide⟩

/-- dec_init_fn leaves a running decoder (R291). -/
theorem decInitFn_runs {site : Site} {m : Buf} {d : Decoder} (h : d.state = .active) :
    Ends (DecRuns d) (DecFails d) (decInitFn site m d) := by
  have start : DecRuns d { d with code := 0#32, range := 0xFFFFFFFF#32 } := ⟨decReads_of_regs rfl rfl rfl, h, rcTop_le_fullRange⟩
  have next : ∀ e, DecRuns d e → Ends (DecRuns d) (DecFails d) (takeByte site m e) := fun e => takeByte_runs
  exact ends_bind (ends_bind (ends_bind (ends_bind (takeByte_runs start) next) next) next) next

/-- consume_fn of an interval keeps a decoder running (R273, R295). -/
theorem consumeFn_runs {site : Site} {m : Buf} {cum fr : Nat} {d0 d : Decoder} (h : DecRuns d0 d) (hf : 1 ≤ fr)
    (hc : cum + fr ≤ Config.total) : Ends (DecRuns d0) (DecFails d0) (consumeFn site m cum fr d) := by
  refine ends_iff.2 ⟨fun e he => ?_, fun c site' e he => decFails_of_reads h.reads (decFails_of_stops (consumeFn_stops he))⟩
  obtain ⟨-, -, -, hwide, -, -, -, hstate⟩ := consumeFn_value h.wide hf hc he
  exact ⟨decReads_trans h.reads (consumeFn_reads he), hstate.trans h.active, hwide⟩

/-- The decoder's step for one symbol, in every state. -/
theorem decodeSymbol_ends (site : Site) (m : Buf) (b : Bucket) (d : Decoder) :
    Ends (fun r => DecReads d r.2.2) (DecFails d) (decodeSymbol site m b d) :=
  ends_map (consumeFn_ends _ _ _ _ _) fun _ h => h

/-- The decoder's step for one symbol keeps a decoder running and answers a symbol (R297). -/
theorem decodeSymbol_runs {site : Site} {m : Buf} {b : Bucket} {d0 d : Decoder} (h : DecRuns d0 d) :
    Ends (fun r => DecRuns d0 r.2.2 ∧ isSymbol r.1 = true) (DecFails d0) (decodeSymbol site m b d) := by
  have hsym := isSymbol_icdfFn b (decValFn_lt d)
  have hfr := one_le_freqFn b hsym
  exact ends_map (consumeFn_runs h hfr (cdfFn_add_freqFn_le hfr)) fun _ he => ⟨he, hsym⟩

theorem decoderStart_ptrsInside {d : Decoder} {base stop size : Nat} (h : base ≤ stop) (hs : stop ≤ size)
    (hm : size ≤ Config.bufSizeMax) : (decoderStart d base stop).PtrsInside size := by
  simp only [Config.bufSizeMax] at hm
  have hb : u32 (BitVec.ofNat 32 base) = base := u32_ofNat (by omega)
  have he : u32 (BitVec.ofNat 32 stop) = stop := u32_ofNat (by omega)
  simp only [Decoder.PtrsInside, decoderStart, hb, he]
  omega

end Machine
end Sys2Proof
end

section
/-! SUPPORT. What the two phases of COMPRESS and the loop of DECOMPRESS keep (45_block.md R361, R370): BUF's size and canonical
form, the coder that runs, and the bound on the working copy's estimates. -/

namespace Sys2Proof
namespace Machine

/-! ## COMPRESS, phase 1 -/

/-- A raise of phase 1 (R361, R363). -/
def QuantFails (m : Buf) (e : ErrorCode) (m' : Buf) : Prop := e = .quantOverflow ∧ BufKept m m'

theorem quantChannel_ends {f ka i : Nat} {c : Fin 4} {a pr : Int} {m0 m : Buf} (h : BufKept m0 m) :
    Ends (fun r => BufKept m0 r.2) (QuantFails m0) (quantChannel f ka i c a pr m) := by
  unfold quantChannel
  simp only
  split
  · exact ⟨rfl, h⟩
  · exact ends_map (ends_orNoByte fun _ hm => bufKept_trans h (store_bufKept hm)) fun _ hm => hm

theorem sampleComponent_ends (sa i : Nat) (c : Fin 4) (m : Buf) (E : ErrorCode → Buf → Prop) :
    Ends (fun _ => True) E (sampleComponent sa i c m) :=
  ends_map (ends_orNoByte fun _ _ => trivial) fun _ _ => trivial

theorem readSample_ends (sa i : Nat) (m : Buf) (E : ErrorCode → Buf → Prop) : Ends (fun _ => True) E (readSample sa i m) :=
  ends_bind (sampleComponent_ends sa i 0 m E) fun _ _ => ends_bind (sampleComponent_ends sa i 1 m E) fun _ _ =>
    ends_bind (sampleComponent_ends sa i 2 m E) fun _ _ => ends_bind (sampleComponent_ends sa i 3 m E) fun _ _ => trivial

theorem quantSample_ends {f sa ka i : Nat} {w : Predictor} {m0 m : Buf} (h : BufKept m0 m) :
    Ends (fun r => r.1.var = w.var ∧ BufKept m0 r.2) (QuantFails m0) (quantSample f sa ka i w m) :=
  ends_bind (readSample_ends sa i m _) fun _ _ => ends_bind (quantChannel_ends h) fun _ h0 =>
    ends_bind (quantChannel_ends h0) fun _ h1 => ends_bind (quantChannel_ends h1) fun _ h2 =>
      ends_bind (quantChannel_ends h2) fun _ h3 => ⟨rfl, h3⟩

/-- Phase 1 keeps BUF and leaves the working copy's estimates alone (R362). -/
theorem quantSamples_ends {f sa ka n i : Nat} {w : Predictor} {m0 m : Buf} (h : BufKept m0 m) :
    Ends (fun r => r.1.var = w.var ∧ BufKept m0 r.2) (QuantFails m0) (quantSamples f sa ka n i w m) := by
  induction n generalizing i w m with
  | zero => exact ⟨rfl, h⟩
  | succ n ih =>
    refine ends_bind (quantSample_ends h) fun r hr => ?_
    obtain ⟨hvar, hbuf⟩ := hr
    exact ends_mono (ih hbuf) (fun r' ⟨hv, hb⟩ => ⟨hv.trans hvar, hb⟩) fun _ _ he => he

/-! ## COMPRESS, phase 2 -/

/-- Phase 2 between two symbols: the encoder runs, and the estimates stay within their bound. -/
def Coding (v0 : Quad Word) (p0 : EncPort) (r : Quad Word × EncPort) : Prop :=
  EncRuns p0 r.2 ∧ (VarsBounded v0 → VarsBounded r.1)

theorem encodeChannel_coding {ka i : Nat} {c : Fin 4} {v0 var : Quad Word} {p0 p : EncPort} (h : Coding v0 p0 (var, p)) :
    Ends (Coding v0 p0) (EncFails p0) (encodeChannel ka i c var p) := by
  obtain ⟨hrun, hvar⟩ := h
  refine ends_bind (P := fun _ => True) (ends_orNoByte fun _ _ => trivial) fun byte _ => ?_
  have hsym := isSymbol_s8 byte
  have hfr := one_le_freqFn (classifyFn (var.get c)) hsym
  exact ends_bind (encodeFn_runs hrun hfr (cdfFn_add_freqFn_le hfr)) fun p' hp =>
    ⟨hp, fun hv => varsBounded_set c (hvar hv) hsym⟩

theorem encodeSample_coding {ka i : Nat} {v0 var : Quad Word} {p0 p : EncPort} (h : Coding v0 p0 (var, p)) :
    Ends (Coding v0 p0) (EncFails p0) (encodeSample ka i var p) :=
  ends_bind (encodeChannel_coding h) fun _ h0 => ends_bind (encodeChannel_coding h0) fun _ h1 =>
    ends_bind (encodeChannel_coding h1) fun _ h2 => encodeChannel_coding h2

theorem encodeSamples_coding {ka n i : Nat} {v0 var : Quad Word} {p0 p : EncPort} (h : Coding v0 p0 (var, p)) :
    Ends (Coding v0 p0) (EncFails p0) (encodeSamples ka n i var p) := by
  induction n generalizing i var p with
  | zero => exact h
  | succ n ih => exact ends_bind (encodeSample_coding h) fun _ hr => ih hr

/-- What phase 2, and COMPRESS whole, keep from p to q: BUF, and the encoder's invariant. -/
def EncPortKept (p q : EncPort) : Prop :=
  BufKept p.buf q.buf ∧ (p.enc.Inv p.buf.size → p.buf.size ≤ Config.bufSizeMax → q.enc.Inv p.buf.size)

/-- Phase 2 whole, into a region inside BUF. -/
theorem entropyCode_ends {f ka n oa oc : Nat} {var : Quad Word} {p : EncPort} (hr : oa + oc ≤ p.buf.size) :
    Ends (fun r => EncPortKept p r.2 ∧ (VarsBounded var → VarsBounded r.1)) (fun e q => Raisable e ∧ EncPortKept p q)
      (entropyCode f ka n oa oc var p) := by
  unfold entropyCode
  split
  · exact ⟨⟨by simp, by simp⟩, bufKept_refl _, fun hi _ => encoder_inv_of_idle (encoder_inv_ptrs hi :) (by simp)⟩
  · refine ends_bind (ends_orNoByte fun m hm => store_bufKept hm) fun m hm => ?_
    have hstart := fun hmax => encoderStart_ptrsInside (base := oa + 1) (stop := oa + oc) (by omega) hr hmax
    refine ends_mono (P := fun r => (EncGrows ⟨encoderStart (oa + 1) (oa + oc), m⟩ r.2 ∧ r.2.enc.state = .flushed) ∧
      (VarsBounded var → VarsBounded r.1)) (E := EncFails ⟨encoderStart (oa + 1) (oa + oc), m⟩) ?_ ?_ ?_
    · exact ends_bind (encodeSamples_coding ⟨encRuns_encoderStart _ _ _, id⟩) fun r hr =>
        ends_bind (flushFn_flushes hr.1.grows) fun q hq =>
          ⟨⟨encGrows_trans hq (encGrows_of_regs rfl rfl rfl), rfl⟩, hr.2⟩
    · rintro r ⟨⟨hg, hs⟩, hv⟩
      exact ⟨⟨bufKept_trans hm (encGrows_bufKept hg), fun _ hmax =>
        encoder_inv_of_idle (encGrows_ptrsInside hg (hstart hmax)) (by simp [hs])⟩, hv⟩
    · intro e q hq
      exact ⟨hq.raisable, bufKept_trans hm (encGrows_bufKept hq.2.2), fun _ hmax => hq.inv (hstart hmax)⟩

/-- COMPRESS after its checks. -/
theorem compressBody_ends {pr : Profile} {s : State} (hr : s.argU 2 + s.argU 3 ≤ s.buf.size) :
    Ends (fun r => EncPortKept s.encPort r.2 ∧ (s.pred.Inv → r.1.Inv)) (fun e q => Raisable e ∧ EncPortKept s.encPort q)
      (compressBody pr s) := by
  refine ends_bind (P := fun r => r.1.var = s.pred.var ∧ BufKept s.buf r.2) (ends_liftStop ?_) fun r h => ?_
  · refine ends_mono (quantSamples_ends (bufKept_refl _)) (fun _ h => h) ?_
    rintro e m ⟨rfl, hm⟩
    exact ⟨⟨by simp, by simp⟩, hm, fun hi _ => hi⟩
  · obtain ⟨w, m⟩ := r
    obtain ⟨hvar, hbuf⟩ := h
    have kept : ∀ q, EncPortKept ⟨s.enc, m⟩ q → EncPortKept s.encPort q := by
      rintro q ⟨hb, hi⟩
      rw [hbuf.size] at hi
      exact ⟨bufKept_trans hbuf hb, hi⟩
    refine ends_bind (ends_mono (entropyCode_ends (p := ⟨s.enc, m⟩) (by rw [hbuf.size]; exact hr)) (fun _ h => h)
      fun e q h => ⟨h.1, kept q h.2⟩) fun r h => ?_
    exact ⟨kept _ h.1, fun hp => h.2 (by rw [hvar]; exact hp)⟩

/-! ## DECOMPRESS -/

/-- DECOMPRESS inside a sample: the decoder runs, and the estimates stay within their bound. -/
def Decoding (v0 : Quad Word) (d0 : Decoder) (var : Quad Word) (d : Decoder) : Prop :=
  DecRuns d0 d ∧ (VarsBounded v0 → VarsBounded var)

theorem decodeChannel_decoding {f i : Nat} {c : Fin 4} {pr : Int} {m : Buf} {v0 var : Quad Word} {d0 d : Decoder}
    (h : Decoding v0 d0 var d) :
    Ends (fun r => Decoding v0 d0 r.2.1 r.2.2) (DecFails d0) (decodeChannel f i c pr m var d) :=
  ends_map (decodeSymbol_runs h.1) fun _ hr => ⟨hr.1, fun hv => varsBounded_set c (h.2 hv) hr.2⟩

theorem decodeSample_decoding {f i : Nat} {w : Predictor} {m : Buf} {v0 : Quad Word} {d0 d : Decoder}
    (h : Decoding v0 d0 w.var d) :
    Ends (fun r => Decoding v0 d0 r.2.1 r.2.2) (DecFails d0) (decodeSample f i w m d) :=
  ends_bind (decodeChannel_decoding h) fun _ h0 => ends_bind (decodeChannel_decoding h0) fun _ h1 =>
    ends_bind (decodeChannel_decoding h1) fun _ h2 => ends_bind (decodeChannel_decoding h2) fun _ h3 => h3

/-- A raise of DECOMPRESS's loop: the decoder's, with BUF as the samples before left it (R371). -/
def DecPortFails (d0 : Decoder) (m0 : Buf) (e : ErrorCode) (q : DecPort) : Prop := DecFails d0 e q.dec ∧ BufKept m0 q.buf

theorem storeComponent_ends {sa i : Nat} {c : Fin 4} {v : Int} {m0 : Buf} {p : DecPort} {E : ErrorCode → DecPort → Prop}
    (h : BufKept m0 p.buf) : Ends (fun q => q.dec = p.dec ∧ BufKept m0 q.buf) E (storeComponent sa i c v p) :=
  ends_map (ends_orNoByte fun _ hm => bufKept_trans h (memWrite_bufKept hm)) fun _ hm => ⟨rfl, hm⟩

theorem decompressSample_decoding {f sa i : Nat} {w : Predictor} {v0 : Quad Word} {d0 : Decoder} {m0 : Buf} {p : DecPort}
    (h : Decoding v0 d0 w.var p.dec) (hb : BufKept m0 p.buf) :
    Ends (fun r => Decoding v0 d0 r.1.var r.2.dec ∧ BufKept m0 r.2.buf) (DecPortFails d0 m0) (decompressSample f sa i w p) := by
  refine ends_bind (ends_liftStop (ends_mono (decodeSample_decoding h) (fun _ hr => hr) fun _ _ he => ⟨he, hb⟩)) ?_
  rintro ⟨r, var, d⟩ hd
  refine ends_bind (storeComponent_ends hb) fun p0 ⟨e0, b0⟩ => ends_bind (storeComponent_ends b0) fun p1 ⟨e1, b1⟩ =>
    ends_bind (storeComponent_ends b1) fun p2 ⟨e2, b2⟩ => ends_bind (storeComponent_ends b2) fun p3 ⟨e3, b3⟩ => ⟨?_, b3⟩
  have hdec : p3.dec = d := e3.trans (e2.trans (e1.trans e0))
  rwa [hdec]

theorem decompressSamples_decoding {f sa n i : Nat} {w : Predictor} {v0 : Quad Word} {d0 : Decoder} {m0 : Buf} {p : DecPort}
    (h : Decoding v0 d0 w.var p.dec) (hb : BufKept m0 p.buf) :
    Ends (fun r => Decoding v0 d0 r.1.var r.2.dec ∧ BufKept m0 r.2.buf) (DecPortFails d0 m0)
      (decompressSamples f sa n i w p) := by
  induction n generalizing i w p with
  | zero => exact ⟨h, hb⟩
  | succ n ih => exact ends_bind (decompressSample_decoding h hb) fun _ hr => ih hr.1 hr.2

/-- What DECOMPRESS keeps from p to q: BUF, and the decoder's invariant. -/
def DecPortKept (p q : DecPort) : Prop :=
  BufKept p.buf q.buf ∧ (p.dec.Inv p.buf.size → p.buf.size ≤ Config.bufSizeMax → q.dec.Inv p.buf.size)

/-- DECOMPRESS after its checks. -/
theorem decompressBody_ends {s : State} (hr : s.argU 0 + s.argU 1 ≤ s.buf.size) :
    Ends (fun r => DecPortKept ⟨s.dec, s.buf⟩ r.2 ∧ (s.pred.Inv → r.1.Inv))
      (fun e q => Raisable e ∧ DecPortKept ⟨s.dec, s.buf⟩ q) (decompressBody s) := by
  unfold decompressBody
  split
  · exact ⟨⟨by simp, by simp⟩, bufKept_refl _, fun hi _ => decoder_inv_of_idle (decoder_inv_ptrs hi :) (by simp)⟩
  · refine ends_bind (P := fun _ => True) (ends_orNoByte fun _ _ => trivial) fun header _ => ?_
    simp only
    split
    · exact ⟨⟨by simp, by simp⟩, bufKept_refl _, fun hi _ => hi⟩
    · have hstart := fun hmax =>
        decoderStart_ptrsInside (d := s.dec) (base := s.argU 0 + 1) (stop := s.argU 0 + s.argU 1) (by omega) hr hmax
      have fails : ∀ e q, DecPortFails (decoderStart s.dec (s.argU 0 + 1) (s.argU 0 + s.argU 1)) s.buf e q →
          Raisable e ∧ DecPortKept ⟨s.dec, s.buf⟩ q :=
        fun e q ⟨hd, hb⟩ => ⟨hd.raisable, hb, fun _ hmax => hd.inv (hstart hmax)⟩
      refine ends_bind (ends_liftStop (ends_mono (decInitFn_runs rfl) (fun _ h => h) fun e d hd =>
        fails e ⟨d, s.buf⟩ ⟨hd, bufKept_refl _⟩)) fun d hd => ?_
      refine ends_mono (decompressSamples_decoding (v0 := s.pred.var) ⟨hd, id⟩ (bufKept_refl _)) ?_ fails
      rintro r ⟨⟨hrun, hvar⟩, hb⟩
      exact ⟨⟨hb, fun _ hmax => hrun.inv (hstart hmax)⟩, hvar⟩

end Machine
end Sys2Proof
end

section
/-! SUPPORT. What a command can do, said once: every command but SRST ends in a success or an error completion of a state that
differs from the one before only in what the command may write, and in which the coders, the estimates and BUF keep their
invariants. The statements about every command follow from `exec_next`. -/

namespace Sys2Proof
namespace Machine

/-! ## The parts of the invariant -/

theorem State.Inv.enc {s : State} (h : s.Inv) : s.enc.Inv s.buf.size := h.1

theorem State.Inv.dec {s : State} (h : s.Inv) : s.dec.Inv s.buf.size := h.2.1

theorem State.Inv.status {s : State} (h : s.Inv) : s.status.Inv := h.2.2.1

theorem State.Inv.pred {s : State} (h : s.Inv) : s.pred.Inv := h.2.2.2.1

theorem State.Inv.buf {s : State} (h : s.Inv) : s.buf.Inv := h.2.2.2.2

theorem State.Inv.bufSize {s : State} (h : s.Inv) : s.buf.size ≤ Config.bufSizeMax := h.buf.2.2

theorem State.Inv.encPtrs {s : State} (h : s.Inv) : s.enc.PtrsInside s.buf.size := encoder_inv_ptrs h.enc

theorem State.Inv.decPtrs {s : State} (h : s.Inv) : s.dec.PtrsInside s.buf.size := decoder_inv_ptrs h.dec

/-! ## What a command writes, and how it ends -/

/-- u is s after writes that the command i may make before it completes (R42, R64, R134, R303). -/
structure CommandWrites (i : Instr) (s u : State) : Prop where
  frame : u = { s with result := u.result, enc := u.enc, dec := u.dec, pred := u.pred, buf := u.buf }
  result : ∀ c : Fin 4, resultCount i ≤ c.val → u.result.get c = s.result.get c
  enc : writesEncoder i = false → u.enc = s.enc
  dec : writesDecoder i = false → u.dec = s.dec
  pred : writesPredictor i = false → u.pred = s.pred
  buf : writesBuffer i = false → u.buf = s.buf
  bufKept : BufKept s.buf u.buf
  encInv : s.Inv → u.enc.Inv s.buf.size
  decInv : s.Inv → u.dec.Inv s.buf.size
  predInv : s.Inv → u.pred.Inv

/-- How the command i can end from s: a success of a state that it wrote (R403), or an error with a code that is raised, with no
RESULT register written and the predictor not committed (R404, R64). -/
def CommandEnds (i : Instr) (s : State) : Result → Prop
  | .next t =>
    (∃ u, CommandWrites i s u ∧ t = u.complete) ∨
      ∃ u e site, CommandWrites i s u ∧ Raisable e ∧ u.result = s.result ∧ u.pred = s.pred ∧ t = u.raiseError e site
  | _ => True

/-! ## One rule per update -/

theorem CommandWrites.status {i : Instr} {s u : State} (h : CommandWrites i s u) : u.status = s.status := by
  rw [h.frame]

theorem CommandWrites.intEn {i : Instr} {s u : State} (h : CommandWrites i s u) : u.intEn = s.intEn := by
  rw [h.frame]

theorem CommandWrites.errSample {i : Instr} {s u : State} (h : CommandWrites i s u) : u.errSample = s.errSample := by
  rw [h.frame]

theorem CommandWrites.errChan {i : Instr} {s u : State} (h : CommandWrites i s u) : u.errChan = s.errChan := by
  rw [h.frame]

theorem commandWrites_refl (i : Instr) (s : State) : CommandWrites i s s :=
  ⟨rfl, fun _ _ => rfl, fun _ => rfl, fun _ => rfl, fun _ => rfl, fun _ => rfl, bufKept_refl _, State.Inv.enc, State.Inv.dec,
    State.Inv.pred⟩

section
variable {i : Instr} {s u : State} (h : CommandWrites i s u)
include h

theorem CommandWrites.withResult_of {r : Quad Word} (hr : ∀ c : Fin 4, resultCount i ≤ c.val → r.get c = u.result.get c) :
    CommandWrites i s (u.withResult r) :=
  { h with
    frame := by rw [h.frame]; rfl
    result := fun c hc => (hr c hc).trans (h.result c hc) }

theorem CommandWrites.withResult (r : Quad Word) (hn : 4 ≤ resultCount i) : CommandWrites i s (u.withResult r) :=
  h.withResult_of fun c hc => by omega

theorem CommandWrites.withResult0 (v : Word) (hn : 1 ≤ resultCount i) : CommandWrites i s (u.withResult0 v) :=
  h.withResult_of fun _ hc => quad_get_set_of_lt (c := 0) v (hn.trans hc)

theorem CommandWrites.withResult01 (v0 v1 : Word) (hn : 2 ≤ resultCount i) : CommandWrites i s (u.withResult01 v0 v1) :=
  (h.withResult0 v0 (Nat.le_of_succ_le hn)).withResult_of fun _ hc =>
    quad_get_set_of_lt (q := (u.withResult0 v0).result) (c := 1) v1 (hn.trans hc)

theorem CommandWrites.withResult012 (v0 v1 v2 : Word) (hn : 3 ≤ resultCount i) :
    CommandWrites i s (u.withResult012 v0 v1 v2) :=
  (h.withResult01 v0 v1 (Nat.le_of_succ_le hn)).withResult_of fun _ hc =>
    quad_get_set_of_lt (q := (u.withResult01 v0 v1).result) (c := 2) v2 (hn.trans hc)

theorem CommandWrites.withEnc {e : Encoder} (hw : writesEncoder i = true) (hi : s.Inv → e.Inv s.buf.size) :
    CommandWrites i s (u.withEnc e) :=
  { h with
    frame := by rw [h.frame]; rfl
    enc := fun hn => absurd (hw.symm.trans hn) (by simp)
    encInv := hi }

theorem CommandWrites.withDec {d : Decoder} (hw : writesDecoder i = true) (hi : s.Inv → d.Inv s.buf.size) :
    CommandWrites i s (u.withDec d) :=
  { h with
    frame := by rw [h.frame]; rfl
    dec := fun hn => absurd (hw.symm.trans hn) (by simp)
    decInv := hi }

theorem CommandWrites.withPred {w : Predictor} (hw : writesPredictor i = true) (hi : s.Inv → w.Inv) :
    CommandWrites i s (u.withPred w) :=
  { h with
    frame := by rw [h.frame]; rfl
    pred := fun hn => absurd (hw.symm.trans hn) (by simp)
    predInv := hi }

theorem CommandWrites.withBuf {m : Buf} (hw : writesBuffer i = true) (hm : BufKept s.buf m) :
    CommandWrites i s (u.withBuf m) :=
  { h with
    frame := by rw [h.frame]; rfl
    buf := fun hn => absurd (hw.symm.trans hn) (by simp)
    bufKept := hm }

theorem CommandWrites.succeeds : CommandEnds i s (succeed u) := .inl ⟨u, h, rfl⟩

end

theorem failWith_commandEnds {i : Instr} {s : State} {e : ErrorCode} {site : Site} (he : Raisable e) :
    CommandEnds i s (failWith e site s) := .inr ⟨s, e, site, commandWrites_refl i s, he, rfl, rfl, rfl⟩

theorem badArgument_commandEnds {i : Instr} {s : State} {site : Site} : CommandEnds i s (failWith .badArgument site s) :=
  failWith_commandEnds ⟨by simp, by simp⟩

theorem coderNotReady_commandEnds {i : Instr} {s : State} {site : Site} : CommandEnds i s (failWith .coderNotReady site s) :=
  failWith_commandEnds ⟨by simp, by simp⟩

theorem ite_commandEnds {i : Instr} {s : State} {c : Prop} [Decidable c] {r r' : Result} (h : c → CommandEnds i s r)
    (h' : ¬c → CommandEnds i s r') : CommandEnds i s (if c then r else r') := by
  split
  · exact h ‹_›
  · exact h' ‹_›

theorem outcomeOf_commandEnds {π α : Type} {i : Instr} {s : State} {put : π → State} {ok : α → State}
    {r : Except (Stop π) α}
    (h : Ends (fun a => CommandWrites i s (ok a))
      (fun e p => Raisable e ∧ CommandWrites i s (put p) ∧ (put p).result = s.result ∧ (put p).pred = s.pred) r) :
    CommandEnds i s (outcomeOf put ok r) := by
  rcases r with (⟨e, site, p⟩ | a) | a
  · obtain ⟨he, hw, hr, hp⟩ := h
    exact .inr ⟨put p, e, site, hw, he, hr, hp, rfl⟩
  · exact trivial
  · exact .inl ⟨ok a, h, rfl⟩

/-! ## The coder commands -/

theorem writes_encPort {i : Instr} {s : State} {p : EncPort} (hw : writesEncoder i = true) (hb : writesBuffer i = true)
    (hm : BufKept s.buf p.buf) (hi : s.Inv → p.enc.Inv s.buf.size) : CommandWrites i s (s.withEncPort p) :=
  ((commandWrites_refl i s).withEnc hw hi).withBuf hb hm

theorem writes_decPort {i : Instr} {s : State} {p : DecPort} (hw : writesDecoder i = true) (hb : writesBuffer i = true)
    (hm : BufKept s.buf p.buf) (hi : s.Inv → p.dec.Inv s.buf.size) : CommandWrites i s (s.withDecPort p) :=
  ((commandWrites_refl i s).withDec hw hi).withBuf hb hm

/-- ENC_SYM and ENC_SYMB after their checks. -/
theorem encodeFn_commandEnds {i : Instr} {s : State} {cum fr : Nat} (hw : writesEncoder i = true) (hb : writesBuffer i = true)
    (ha : s.enc.state = .active) (hf : 1 ≤ fr) (hc : cum + fr ≤ Config.total) :
    CommandEnds i s (outcomeOf s.withEncPort s.withEncPort (encodeFn .na cum fr s.encPort)) := by
  have hruns := fun hi : s.Inv => encodeFn_runs (site := .na) (encRuns_of_inv (p := s.encPort) hi.enc ha) hf hc
  refine outcomeOf_commandEnds (ends_mono (ends_and (encodeFn_ends .na cum fr s.encPort) (ends_imp hruns)) ?_ ?_)
  · rintro q ⟨hg, hr⟩
    exact writes_encPort hw hb (encGrows_bufKept hg) fun hi => (hr hi).inv (hi.encPtrs)
  · rintro e q ⟨hq, -⟩
    exact ⟨hq.raisable, writes_encPort hw hb (encGrows_bufKept hq.2.2) fun hi => hq.inv (hi.encPtrs), rfl, rfl⟩

theorem flushFn_commandEnds (s : State) :
    CommandEnds .encFlush s (outcomeOf s.withEncPort s.afterFlush (flushFn .na s.encPort)) := by
  refine outcomeOf_commandEnds (ends_mono (flushFn_ends .na s.encPort) ?_ ?_)
  · intro q hg
    have hflushed : CommandWrites .encFlush s (s.withEncPort { q with enc := { q.enc with state := .flushed } }) :=
      writes_encPort rfl rfl (encGrows_bufKept hg) fun hi =>
        encoder_inv_of_idle (encGrows_ptrsInside hg hi.encPtrs :) (by simp)
    exact hflushed.withResult0 (q.enc.outPtr - q.enc.outBase) (Nat.le_refl 1)
  · intro e q hq
    exact ⟨hq.raisable, writes_encPort rfl rfl (encGrows_bufKept hq.2.2) fun hi => hq.inv (hi.encPtrs), rfl, rfl⟩

/-- The decoder commands: a decoder function that keeps the decoder's invariant, and writes that take its answer. -/
theorem decoder_commandEnds {α : Type} {i : Instr} {s : State} {ok : α → State} {dec : α → Decoder}
    {r : Except (Stop Decoder) α} (hw : writesDecoder i = true)
    (hok : ∀ a, CommandWrites i s (s.withDec (dec a)) → CommandWrites i s (ok a))
    (h : Ends (fun a => s.Inv → (dec a).Inv s.buf.size) (fun e d => Raisable e ∧ (s.Inv → d.Inv s.buf.size)) r) :
    CommandEnds i s (outcomeOf s.withDec ok r) := by
  have writes := fun d hd => (commandWrites_refl i s).withDec (d := d) hw hd
  exact outcomeOf_commandEnds (ends_mono h (fun a ha => hok a (writes _ ha)) fun e d hd => ⟨hd.1, writes d hd.2, rfl, rfl⟩)

theorem decInit_commandEnds (s : State) : CommandEnds .decInit s (execDecInit s) := by
  refine ite_commandEnds (fun hr => ?_) fun _ => badArgument_commandEnds
  simp only [Region.inBuf, decide_eq_true_eq] at hr
  have hstart := fun hmax => decoderStart_ptrsInside (d := s.dec) (base := s.argU 0) (Nat.le_add_right _ (s.argU 1)) hr hmax
  refine decoder_commandEnds (dec := id) rfl (fun _ h => h) (ends_mono (decInitFn_runs rfl) ?_ ?_)
  · exact fun d hd hi => hd.inv (hstart hi.bufSize)
  · exact fun e d hd => ⟨hd.raisable, fun hi => hd.inv (hstart hi.bufSize)⟩

theorem decConsume_commandEnds (s : State) : CommandEnds .decConsume s (execDecConsume s) := by
  refine ite_commandEnds (fun _ => coderNotReady_commandEnds) fun ha => ?_
  refine ite_commandEnds (fun _ => badArgument_commandEnds) fun hc => ?_
  have hruns := fun hi : s.Inv => consumeFn_runs (site := .na) (m := s.buf) (cum := s.argU 0) (fr := s.argU 1)
    (decRuns_of_inv hi.dec (not_not.1 ha)) (by omega) (by omega)
  refine decoder_commandEnds (dec := id) rfl (fun _ h => h)
    (ends_mono (ends_and (consumeFn_ends .na s.buf _ _ s.dec) (ends_imp hruns)) ?_ ?_)
  · exact fun d hd hi => (hd.2 hi).inv hi.decPtrs
  · exact fun e d hd => ⟨hd.1.raisable, fun hi => hd.1.inv hi.decPtrs⟩

theorem decSymb_commandEnds (b : Bucket) (s : State) : CommandEnds (.decSymb b) s (execDecSymb b s) := by
  refine ite_commandEnds (fun _ => coderNotReady_commandEnds) fun ha => ?_
  have hruns := fun hi : s.Inv => decodeSymbol_runs (site := .na) (m := s.buf) (b := b)
    (decRuns_of_inv hi.dec (not_not.1 ha))
  refine decoder_commandEnds (dec := fun r : Int × Nat × Decoder => r.2.2) rfl
    (fun r h => h.withResult01 (toWord r.1) (toWord r.2.1) (Nat.le_refl 2))
    (ends_mono (ends_and (decodeSymbol_ends .na s.buf b s.dec) (ends_imp hruns)) ?_ ?_)
  · exact fun r hr hi => (hr.2 hi).1.inv hi.decPtrs
  · exact fun e d hd => ⟨hd.1.raisable, fun hi => hd.1.inv hi.decPtrs⟩

theorem encInit_commandEnds (s : State) : CommandEnds .encInit s (execEncInit s) := by
  refine ite_commandEnds (fun hr => ?_) fun _ => badArgument_commandEnds
  simp only [Region.inBuf, decide_eq_true_eq] at hr
  refine ((commandWrites_refl _ s).withEnc rfl fun hi => ?_).succeeds
  exact (encRuns_encoderStart _ _ s.buf).inv (encoderStart_ptrsInside (Nat.le_add_right _ _) hr hi.bufSize)

/-! ## The block commands -/

theorem compress_commandEnds (pr : Profile) (s : State) : CommandEnds (.compress pr) s (execCompress pr s) := by
  refine ite_commandEnds (fun hr => ?_) fun _ => badArgument_commandEnds
  refine ite_commandEnds (fun _ => failWith_commandEnds ⟨by simp, by simp⟩) fun _ => ?_
  obtain ⟨-, hout, -⟩ := regionCheck_triple hr
  have writes : ∀ q, EncPortKept s.encPort q → CommandWrites (.compress pr) s (s.withEncPort q) :=
    fun q ⟨hb, hq⟩ => writes_encPort rfl rfl hb fun hi => hq hi.enc hi.bufSize
  refine outcomeOf_commandEnds (ends_mono (compressBody_ends hout) ?_ ?_)
  · exact fun r hr => ((writes r.2 hr.1).withPred rfl fun hi => hr.2 hi.pred).withResult0 _ (Nat.le_refl 1)
  · exact fun e q hq => ⟨hq.1, writes q hq.2, rfl, rfl⟩

theorem decompress_commandEnds (s : State) : CommandEnds .decompress s (execDecompress s) := by
  refine ite_commandEnds (fun hr => ?_) fun _ => badArgument_commandEnds
  obtain ⟨hin, -⟩ := regionCheck_pair hr
  have writes : ∀ q, DecPortKept ⟨s.dec, s.buf⟩ q → CommandWrites .decompress s (s.withDecPort q) :=
    fun q ⟨hb, hq⟩ => writes_decPort rfl rfl hb fun hi => hq hi.dec hi.bufSize
  refine outcomeOf_commandEnds (ends_mono (decompressBody_ends hin) ?_ ?_)
  · exact fun r hr => ((writes r.2 hr.1).withPred rfl fun hi => hr.2 hi.pred).withResult0 _ (Nat.le_refl 1)
  · exact fun e q hq => ⟨hq.1, writes q hq.2, rfl, rfl⟩

/-! ## Every command -/

/-- The stream-start predictor state is within the bound of R325 (R176). -/
theorem predictor_start_inv : Predictor.start.Inv := by decide

/-- Every command but SRST ends as `CommandEnds` says. -/
theorem exec_commandEnds {i : Instr} (hi : i ≠ .srst) (s : State) : CommandEnds i s (exec i s) := by
  have refl := commandWrites_refl i s
  cases i with
  | srst => exact absurd rfl hi
  | nop => exact refl.succeeds
  | prst => exact (refl.withPred rfl fun _ => predictor_start_inv).succeeds
  | cdf b => exact (refl.withResult0 _ (Nat.le_refl 1)).succeeds
  | freq b => exact (refl.withResult0 _ (Nat.le_refl 1)).succeeds
  | icdf b =>
    exact ite_commandEnds (fun _ => badArgument_commandEnds) fun _ => (refl.withResult012 _ _ _ (Nat.le_refl 3)).succeeds
  | v2b => exact (refl.withResult0 _ (Nat.le_refl 1)).succeeds
  | b2v => exact (refl.withResult0 _ (Nat.le_refl 1)).succeeds
  | scalebits => exact (refl.withResult0 _ (Nat.le_refl 1)).succeeds
  | qmul cnj => exact (refl.withResult _ (Nat.le_refl 4)).succeeds
  | qexp => exact (refl.withResult _ (Nat.le_refl 4)).succeeds
  | encInit => exact encInit_commandEnds s
  | encSym =>
    refine ite_commandEnds (fun _ => coderNotReady_commandEnds) fun ha => ?_
    refine ite_commandEnds (fun _ => badArgument_commandEnds) fun hc => ?_
    exact encodeFn_commandEnds rfl rfl (not_not.1 ha) (by omega) (by omega)
  | encSymb b =>
    refine ite_commandEnds (fun _ => coderNotReady_commandEnds) fun ha => ?_
    refine ite_commandEnds (fun _ => badArgument_commandEnds) fun hc => ?_
    have hfr : 1 ≤ freqFn (s.argS 0) b := by omega
    exact encodeFn_commandEnds rfl rfl (not_not.1 ha) hfr (cdfFn_add_freqFn_le hfr)
  | encFlush => exact ite_commandEnds (fun _ => coderNotReady_commandEnds) fun _ => flushFn_commandEnds s
  | decInit => exact decInit_commandEnds s
  | decVal =>
    exact ite_commandEnds (fun _ => coderNotReady_commandEnds) fun _ => (refl.withResult0 _ (Nat.le_refl 1)).succeeds
  | decConsume => exact decConsume_commandEnds s
  | decSymb b => exact decSymb_commandEnds b s
  | predict => exact (refl.withResult _ (Nat.le_refl 4)).succeeds
  | quant p =>
    simp only [exec, execQuant]
    split
    · exact failWith_commandEnds ⟨by simp, by simp⟩
    · exact (refl.withResult _ (Nat.le_refl 4)).succeeds
  | dequant p =>
    simp only [exec, execDequant]
    split
    · exact badArgument_commandEnds
    · exact (refl.withResult _ (Nat.le_refl 4)).succeeds
  | classify => exact (refl.withResult _ (Nat.le_refl 4)).succeeds
  | vupd => exact ite_commandEnds (fun _ => (refl.withResult0 _ (Nat.le_refl 1)).succeeds) fun _ => badArgument_commandEnds
  | compress p => exact compress_commandEnds p s
  | decompress => exact decompress_commandEnds s

/-- The inversion of `exec`: how a command other than SRST came to the next state t. -/
theorem exec_next {i : Instr} {s t : State} (h : exec i s = .next t) (hi : i ≠ .srst) :
    (∃ u, CommandWrites i s u ∧ t = u.complete) ∨
      ∃ u e site, CommandWrites i s u ∧ Raisable e ∧ u.result = s.result ∧ u.pred = s.pred ∧ t = u.raiseError e site := by
  have := exec_commandEnds hi s
  rwa [h] at this

theorem exec_srst {s t : State} : exec .srst s = .next t ↔ t = s.softReset.complete := succeed_eq_next

end Machine
end Sys2Proof
end

section
/-! SUPPORT. What an access of the host can do, and what a step can do: the register map as equations between its rows and `regAt`,
what a write leaves and keeps, and the inversion of `step`. -/

namespace Sys2Proof
namespace Machine

/-! ## The register map (R58) -/

theorem regAt_row : ∀ row ∈ registerRows, regAt row.offset = some row.reg := by decide

theorem row_in_window : ∀ row ∈ registerRows, row.offset < regWindowSize ∧ row.offset % 4 = 0 := by decide

theorem regAt_beyond_rows {offset : Nat} (h : 0x0D0 ≤ offset) : regAt offset = none := by
  unfold regAt
  split
  case h_46 => rfl
  all_goals omega

theorem regAt_below : ∀ offset < 0x0D0,
    (regAt offset).all (fun r => registerRows.any fun row => row.offset == offset && row.reg == r) = true := by
  decide +kernel

/-- Every mapped offset has its row. -/
theorem regAt_eq_some {offset : Nat} {r : HostReg} (h : regAt offset = some r) :
    ∃ row ∈ registerRows, row.offset = offset ∧ row.reg = r := by
  rcases Nat.lt_or_ge offset 0x0D0 with hlt | hge
  · simpa [h] using regAt_below offset hlt
  · rw [regAt_beyond_rows hge] at h
    cases h

theorem regAt_eq_none {offset : Nat} (h : ∀ row ∈ registerRows, row.offset ≠ offset) : regAt offset = none := by
  cases hr : regAt offset with
  | none => rfl
  | some r =>
    obtain ⟨row, hrow, hoff, -⟩ := regAt_eq_some hr
    exact absurd hoff (h row hrow)

/-! ## Where an access goes -/

theorem targetOf_window (s : State) {offset : Nat} (h : offset < regWindowSize) (h4 : offset % 4 = 0) :
    targetOf s 4 (s.baseAddr + offset) = .register (regAt offset) := by
  simp [targetOf, targetAt, h, h4]

theorem targetOf_reg (s : State) {offset : Nat} {r : HostReg} (h : regAt offset = some r) :
    targetOf s 4 (s.baseAddr + offset) = .register (some r) := by
  obtain ⟨row, hrow, rfl, -⟩ := regAt_eq_some h
  obtain ⟨hlt, h4⟩ := row_in_window row hrow
  rw [targetOf_window s hlt h4, h]

theorem step_write_reg {s : State} {offset : Nat} {r : HostReg} {w : Word} {rest : List Input} (hr : regAt offset = some r)
    (h : s.inputs = .write 4 (s.baseAddr + offset) w :: rest) : step s = .next ((s.withInputs rest).hostWriteReg r w) := by
  have ht := targetOf_reg (s.withInputs rest) hr
  rw [withInputs_baseAddr] at ht
  rw [step_cons h, deliver, hostWrite, ht]

theorem step_read_reg {s : State} {offset : Nat} {r : HostReg} {rest : List Input} (hr : regAt offset = some r)
    (h : s.inputs = .read 4 (s.baseAddr + offset) :: rest) : step s = .next ((s.withInputs rest).hostReadReg r) := by
  have ht := targetOf_reg (s.withInputs rest) hr
  rw [withInputs_baseAddr] at ht
  rw [step_cons h, deliver, hostRead, ht]

/-! ## Register writes -/

theorem hostWriteReg_idle {s : State} {r : HostReg} {w : Word} (h : s.status.busy = false) :
    s.hostWriteReg r w = s.writeReg r w := by
  simp [State.hostWriteReg, h]

theorem hostWriteReg_busy {s : State} {r : HostReg} {w : Word} (h : s.status.busy = true) (hr : r ≠ .intEn) :
    s.hostWriteReg r w = s.markOverrun := by
  simp [State.hostWriteReg, h, hr]

theorem hostWriteReg_intEn (s : State) (w : Word) : s.hostWriteReg .intEn w = { s with intEn := IntEn.ofWord w } := by
  simp [State.hostWriteReg, State.writeReg]

/-- A write to ARGi changes the ARG registers only (R41). -/
theorem writeArg_frame (s : State) (i : Fin 8) (w : Word) :
    s.writeArg i w = { s with argLo := (s.writeArg i w).argLo, argHi := (s.writeArg i w).argHi } := by
  fin_cases i <;> rfl

theorem argWord_writeArg (s : State) (i j : Fin 8) (w : Word) :
    (s.writeArg i w).argWord j = if j = i then w else s.argWord j := by
  fin_cases i <;> fin_cases j <;> rfl

/-! ## What an access keeps -/

/-- From s to t the host made an access: the coders and the predictor stay, and BUF and STATUS keep their invariants. -/
structure HostAccess (s t : State) : Prop where
  enc : t.enc = s.enc
  dec : t.dec = s.dec
  pred : t.pred = s.pred
  buf : BufKept s.buf t.buf
  status : s.status.Inv → t.status.Inv

theorem hostAccess_refl (s : State) : HostAccess s s := ⟨rfl, rfl, rfl, bufKept_refl _, id⟩

/-- An acceptance leaves no pending bit and no error code (R401, R411). -/
theorem status_inv_accept (st : Status) :
    Status.Inv { st with busy := true, done := false, err := false, errcode := .none } :=
  ⟨by simp, by simp, by simp⟩

theorem hostAccess_writeReg {s : State} (h : s.status.busy = false) (r : HostReg) (w : Word) : HostAccess s (s.writeReg r w) := by
  cases r with
  | cmd => exact ⟨rfl, rfl, rfl, bufKept_refl _, fun _ => status_inv_accept s.status⟩
  | status =>
    refine ⟨rfl, rfl, rfl, bufKept_refl _, fun hi => ?_⟩
    obtain ⟨herr, -, hcode⟩ := hi
    simp only [Status.Inv, State.writeReg, Status.writeOneToClear, h]
    cases w.getLsbD 2 <;> simp [herr, hcode]
  | arg i =>
    simp only [State.writeReg]
    rw [writeArg_frame]
    exact ⟨rfl, rfl, rfl, bufKept_refl _, id⟩
  | intEn | prof0 | prof1 => exact ⟨rfl, rfl, rfl, bufKept_refl _, id⟩
  | _ => exact hostAccess_refl s

theorem hostAccess_writeIntEn (s : State) (e : IntEn) : HostAccess s { s with intEn := e } :=
  ⟨rfl, rfl, rfl, bufKept_refl _, id⟩

theorem hostAccess_hostWriteReg (s : State) (r : HostReg) (w : Word) : HostAccess s (s.hostWriteReg r w) := by
  cases hb : s.status.busy with
  | false => exact hostWriteReg_idle hb ▸ hostAccess_writeReg hb r w
  | true =>
    by_cases hr : r = .intEn
    · subst hr
      exact hostWriteReg_intEn s w ▸ hostAccess_writeIntEn s _
    · exact hostWriteReg_busy hb hr ▸ ⟨rfl, rfl, rfl, bufKept_refl _, id⟩

theorem hostAccess_hostReadReg (s : State) (r : HostReg) : HostAccess s (s.hostReadReg r) := by
  unfold State.hostReadReg
  split <;> exact ⟨rfl, rfl, rfl, bufKept_refl _, id⟩

theorem hostAccess_returnToHost (s : State) (v : Word) : HostAccess s (s.returnToHost v) := ⟨rfl, rfl, rfl, bufKept_refl _, id⟩

theorem hostRead_next {s t : State} {width addr : Nat} (h : hostRead s width addr = .next t) : HostAccess s t := by
  unfold hostRead at h
  split at h
  case h_3 a =>
    split at h <;> cases h
    exact hostAccess_returnToHost s _
  all_goals cases h
  · exact hostAccess_hostReadReg s _
  · exact hostAccess_returnToHost s _
  · exact hostAccess_returnToHost s _
  · exact hostAccess_refl _

theorem hostWrite_next {s t : State} {width addr : Nat} {v : Word} (h : hostWrite s width addr v = .next t) : HostAccess s t := by
  unfold hostWrite at h
  split at h
  case h_3 a =>
    split at h <;> cases h
    exact ⟨rfl, rfl, rfl, memWrite_bufKept ‹_›, id⟩
  all_goals cases h
  · exact hostAccess_hostWriteReg s _ v
  all_goals exact hostAccess_refl _

/-! ## What a step can do -/

/-- The next event is the engine's, and rest is what still waits outside. -/
def State.engineNext (s : State) (rest : List Input) : Prop := (s.inputs = [] ∧ rest = []) ∨ s.inputs = .engine :: rest

theorem withInputs_self {s : State} {l : List Input} (h : s.inputs = l) : s.withInputs l = s := by
  subst h
  rfl

/-- The inversion of `step`: the reset input, an access of the host, or the engine's move. -/
theorem step_next {s t : State} (h : step s = .next t) :
    (∃ rest, s.inputs = .reset :: rest ∧ t = (s.withInputs rest).resetInput) ∨
      (∃ rest, HostAccess (s.withInputs rest) t) ∨ ∃ rest, s.engineNext rest ∧ engineMove (s.withInputs rest) = .next t := by
  cases hin : s.inputs with
  | nil =>
    rw [step_nil hin] at h
    exact .inr (.inr ⟨[], .inl ⟨hin, rfl⟩, by rwa [withInputs_self hin]⟩)
  | cons i rest =>
    rw [step_cons hin] at h
    cases i with
    | read width addr => exact .inr (.inl ⟨rest, hostRead_next h⟩)
    | write width addr v => exact .inr (.inl ⟨rest, hostWrite_next h⟩)
    | reset =>
      cases h
      exact .inl ⟨rest, rfl, rfl⟩
    | engine => exact .inr (.inr ⟨rest, .inr hin, h⟩)

/-- The inversion of the engine's move: it is idle, it completes an illegal word, or it runs the command that the latch decodes to. -/
theorem engineMove_next {s t : State} (h : engineMove s = .next t) :
    (s.status.busy = false ∧ t = s) ∨ (s.status.busy = true ∧ t = s.raiseError .illegalCommand .na) ∨
      (s.status.busy = true ∧ ∃ i, decode s.latch = .ok i ∧ exec i s = .next t) := by
  cases hb : s.status.busy with
  | false =>
    rw [engineMove_idle hb] at h
    cases h
    exact .inl ⟨rfl, rfl⟩
  | true =>
    rw [engineMove_busy hb] at h
    cases hd : decode s.latch with
    | ok i => exact .inr (.inr ⟨rfl, i, rfl, by rwa [runLatched_ok hd] at h⟩)
    | error e =>
      rw [runLatched_error hd] at h
      cases h
      exact .inr (.inl ⟨rfl, rfl⟩)

end Machine
end Sys2Proof
end

section
/-! SUPPORT. Every step keeps the machine invariant: the reset states meet it, a completion keeps what `CommandWrites` keeps, and an
access of the host touches neither coder nor predictor. -/

namespace Sys2Proof
namespace Machine

/-! ## The parts -/

theorem encoder_reset_inv (size : Nat) : Encoder.reset.Inv size :=
  encoder_inv_of_idle ⟨Nat.le_refl _, Nat.le_refl _, Nat.zero_le _⟩ (by simp [Encoder.reset])

theorem decoder_reset_inv (size : Nat) : Decoder.reset.Inv size :=
  decoder_inv_of_idle ⟨Nat.le_refl _, Nat.le_refl _, Nat.zero_le _⟩ (by simp [Decoder.reset])

theorem status_reset_inv : Status.reset.Inv := by decide

theorem bufKept_inv {m m' : Buf} (h : BufKept m m') (hm : m.Inv) : m'.Inv :=
  ⟨h.wf hm.1, h.size ▸ hm.2.1, h.size ▸ hm.2.2⟩

/-- A success completion of a legal status (R403). -/
theorem status_inv_complete {st : Status} (h : st.Inv) : Status.Inv { st with busy := false, done := true } :=
  ⟨h.1, by simp, h.2.2⟩

/-- An error completion with a code that is raised (R404). -/
theorem status_inv_raise {st : Status} {e : ErrorCode} (he : Raisable e) :
    Status.Inv { st with busy := false, done := true, err := true, errcode := e } :=
  ⟨by simp [he.1], by simp, he.2⟩

/-- The invariant of a state whose parts come from one that BUF was kept from. -/
theorem inv_of_bufKept {s t : State} (hm : s.buf.Inv) (hk : BufKept s.buf t.buf) (henc : t.enc.Inv s.buf.size)
    (hdec : t.dec.Inv s.buf.size) (hst : t.status.Inv) (hpred : t.pred.Inv) : t.Inv :=
  ⟨hk.size ▸ henc, hk.size ▸ hdec, hst, hpred, bufKept_inv hk hm⟩

/-! ## The events -/

theorem resetInput_inv {s : State} (h : s.Inv) : s.resetInput.Inv := by
  obtain ⟨-, hsize⟩ := h.buf
  exact ⟨encoder_reset_inv _, decoder_reset_inv _, status_reset_inv, predictor_start_inv, rfl, hsize⟩

theorem HostAccess.inv {s t : State} (h : HostAccess s t) (hs : s.Inv) : t.Inv :=
  inv_of_bufKept hs.buf h.buf (h.enc ▸ hs.enc) (h.dec ▸ hs.dec) (h.status hs.status) (h.pred ▸ hs.pred)

/-- A completion of what a command wrote meets the invariant if its STATUS does. -/
theorem CommandWrites.inv {i : Instr} {s u : State} (h : CommandWrites i s u) (hs : s.Inv) {st : Status} {es ec : Word}
    (hst : st.Inv) : State.Inv { u with status := st, errSample := es, errChan := ec } :=
  inv_of_bufKept (s := s) hs.buf h.bufKept (h.encInv hs) (h.decInv hs) hst (h.predInv hs)

theorem srst_inv {s : State} (h : s.Inv) : s.softReset.complete.Inv :=
  ⟨encoder_reset_inv _, decoder_reset_inv _, status_inv_complete (st := { s.status with ovr := false }) h.status,
    predictor_start_inv, h.buf⟩

/-- Every command keeps the invariant. -/
theorem exec_inv {i : Instr} {s t : State} (hs : s.Inv) (h : exec i s = .next t) : t.Inv := by
  by_cases hi : i = .srst
  · subst hi
    exact exec_srst.1 h ▸ srst_inv hs
  · rcases exec_next h hi with ⟨u, hw, rfl⟩ | ⟨u, e, site, hw, he, -, -, rfl⟩
    · exact hw.inv hs (status_inv_complete (hw.status ▸ hs.status))
    · exact hw.inv hs (status_inv_raise he)

theorem engineMove_inv {s t : State} (hs : s.Inv) (h : engineMove s = .next t) : t.Inv := by
  rcases engineMove_next h with ⟨-, rfl⟩ | ⟨-, rfl⟩ | ⟨-, i, -, hexec⟩
  · exact hs
  · exact (commandWrites_refl .nop s).inv hs (status_inv_raise ⟨by simp, by simp⟩)
  · exact exec_inv hs hexec

/-- Settles O22: by the inversion of `step`, each event keeps the invariant. -/
theorem stepKeepsInvariant : Obligations.StepKeepsInvariant := by
  intro s t hs h
  rcases step_next h with ⟨rest, -, rfl⟩ | ⟨rest, ht⟩ | ⟨rest, -, ht⟩
  · exact resetInput_inv (s := s.withInputs rest) hs
  · exact ht.inv (s := s.withInputs rest) hs
  · exact engineMove_inv (s := s.withInputs rest) hs ht

end Machine
end Sys2Proof
end

section
/-! SUPPORT. The statements about every command, each read off the inversion `exec_next` of `exec`; SRST, whose next state is one
term, apart. -/

namespace Sys2Proof
namespace Machine

/-- Settles O30: a command that is not among a part's writers leaves the part. -/
theorem commandFrames : Obligations.CommandFrames := by
  intro i s t h
  by_cases hi : i = .srst
  · subst hi
    cases exec_srst.1 h
    simp [writesEncoder, writesDecoder, writesPredictor]
  · rcases exec_next h hi with ⟨u, hw, rfl⟩ | ⟨u, e, site, hw, -, -, -, rfl⟩ <;> exact ⟨hw.enc, hw.dec, hw.pred, hw.buf⟩

/-- Settles O25: the frame of `CommandWrites`, and completion writes STATUS, ERR_SAMPLE and ERR_CHAN only. -/
theorem commandsKeepTheHostsRegisters : Obligations.CommandsKeepTheHostsRegisters := by
  intro i s t h hi
  rcases exec_next h hi with ⟨u, hw, rfl⟩ | ⟨u, e, site, hw, -, -, -, rfl⟩
  all_goals
    refine ⟨?_, by simp [hw.status], hw.bufKept.size, hw.bufKept.resets⟩
    rw [hw.frame]
    rfl

/-- Settles O27, by the RESULT clause of `CommandWrites`; an error writes none. -/
theorem unlistedResultsAreKept : Obligations.UnlistedResultsAreKept := by
  intro i s t h hi
  rcases exec_next h hi with ⟨u, hw, rfl⟩ | ⟨u, e, site, hw, -, -, -, rfl⟩ <;> exact hw.result

/-- Settles O26: a success keeps the STATUS that the acceptance left, an error puts its code there. -/
theorem completionReport : Obligations.CompletionReport := by
  intro i s t ⟨herr, hcode⟩ h
  by_cases hi : i = .srst
  · subst hi
    cases exec_srst.1 h
    simp [herr, hcode]
  · rcases exec_next h hi with ⟨u, hw, rfl⟩ | ⟨u, e, site, hw, he, hr, -, rfl⟩
    · simp [hw.status, herr, hcode, hw.errSample, hw.errChan]
    · simp [he.1, hr]

/-- An error completion commits no predictor state (R64). -/
theorem pred_of_failed {i : Instr} {s t : State} (ha : s.accepted) (h : exec i s = .next t) (hf : t.failed) :
    t.pred = s.pred := by
  obtain ⟨herr, -⟩ := ha
  by_cases hi : i = .srst
  · subst hi
    cases exec_srst.1 h
    simp [State.failed, herr] at hf
  · rcases exec_next h hi with ⟨u, hw, rfl⟩ | ⟨u, e, site, -, -, -, hp, rfl⟩
    · simp [State.failed, hw.status, herr] at hf
    · exact hp

/-- The commands that may write the predictor, by name (R64). -/
theorem writesPredictor_iff {i : Instr} :
    writesPredictor i = true ↔ i = .prst ∨ i = .srst ∨ (∃ p, i = .compress p) ∨ i = .decompress := by
  cases i <;> simp [writesPredictor]

/-- Settles O24: by the inversion of `step`, what changes the predictor is the reset input or a command that writes it, and no
command writes it and then raises. -/
theorem predictorChangesInFourCases : Obligations.PredictorChangesInFourCases := by
  refine ⟨fun s t h hne => ?_, fun i s t => pred_of_failed⟩
  rcases step_next h with ⟨rest, hin, -⟩ | ⟨rest, ht⟩ | ⟨rest, hnext, hmove⟩
  · exact .inl ⟨rest, hin⟩
  · exact absurd ht.pred hne
  · rcases engineMove_next hmove with ⟨-, rfl⟩ | ⟨-, rfl⟩ | ⟨hbusy, i, hd, hexec⟩
    · exact absurd rfl hne
    · exact absurd rfl hne
    · have hw : writesPredictor i = true := by
        by_contra hn
        obtain ⟨-, -, hpred, -⟩ := commandFrames i _ t hexec
        exact hne (hpred (by simpa using hn))
      have hok : s.accepted → t.status.err = false := fun ha => by
        by_contra hf
        exact hne (pred_of_failed (s := s.withInputs rest) ha hexec (by simpa using hf))
      refine .inr ⟨hbusy, hnext.imp And.left fun hin => ⟨rest, hin⟩, ?_⟩
      rw [withInputs_latch] at hd
      simp only [hd, Except.ok.injEq]
      rcases writesPredictor_iff.1 hw with hi | hi | hi | hi
      · exact .inl hi
      · exact .inr (.inl hi)
      · exact .inr (.inr ⟨.inl hi, hok⟩)
      · exact .inr (.inr ⟨.inr hi, hok⟩)

/-- Settles O32: at a completion DONE is 1 and ERR tells an error from a success; while BUSY = 1 the invariant has both 0. -/
theorem interruptLine : Obligations.InterruptLine := by
  refine ⟨fun i s t ⟨herr, _⟩ h hi => ?_, fun s t h => ?_, fun s hs hb => ?_⟩
  · rcases exec_next h hi with ⟨u, hw, rfl⟩ | ⟨u, e, site, hw, -, -, -, rfl⟩
    · simp [State.irq, hw.status, hw.intEn, herr]
    · simp [State.irq, hw.intEn]
  · cases exec_srst.1 h
    simp [State.irq]
  · obtain ⟨hdone, herr⟩ := hs.status.2.1 hb
    simp [State.irq, hdone, herr]

end Machine
end Sys2Proof
end

section
/-! SUPPORT. The statements about the host's registers: the register map row by row, and what one access of the host does. -/

namespace Sys2Proof
namespace Machine

/-! ## Words and their bits -/

/-- STATUS's W1C bits, as the host reads them (R33). -/
theorem statusWord_getLsbD (s : State) :
    s.statusWord.getLsbD 1 = s.status.done ∧ s.statusWord.getLsbD 2 = s.status.err ∧
      s.statusWord.getLsbD 3 = s.status.ovr := by
  simp only [State.statusWord, BitVec.getLsbD_append]
  simp

/-- The bits that STATUS keeps at 0: 7:4 and 31:20 (R33). -/
theorem statusWord_unused (s : State) : s.statusWord &&& ~~~0x000FFFFF#32 = 0#32 := by
  apply BitVec.eq_of_getLsbD_eq
  intro i hi
  rw [BitVec.getLsbD_and]
  rcases Nat.lt_or_ge i 20 with h | h
  · interval_cases i <;> simp
  · have : s.statusWord.getLsbD i = false := by
      simp only [State.statusWord, BitVec.getLsbD_append]
      iterate 8 rw [if_neg (by omega)]
      simp
    simp [this]

/-- The W1C bits of STATUS are bits 1 to 3: no other bit is under their mask. -/
theorem and_w1c_eq {v w : Word} (h1 : v.getLsbD 1 = w.getLsbD 1) (h2 : v.getLsbD 2 = w.getLsbD 2)
    (h3 : v.getLsbD 3 = w.getLsbD 3) : v &&& 0x0000000E#32 = w &&& 0x0000000E#32 := by
  apply BitVec.eq_of_getLsbD_eq
  intro i hi
  rw [BitVec.getLsbD_and, BitVec.getLsbD_and]
  rcases i with _ | _ | _ | _ | i
  · simp
  · rw [h1]
  · rw [h2]
  · rw [h3]
  · simp [BitVec.getLsbD_ofNat, Nat.testBit_succ]

/-- INT_EN's bits, as the host reads it (R39). -/
theorem intEn_word_getLsbD (e : IntEn) (i : Nat) :
    e.word.getLsbD i = if i = 0 then e.doneIe else if i = 1 then e.errIe else false := by
  simp only [IntEn.word, BitVec.getLsbD_append]
  rcases i with _ | _ | i <;> simp

theorem intEn_word_ofWord (w : Word) : (IntEn.ofWord w).word = w &&& 0x00000003#32 := by
  apply BitVec.eq_of_getLsbD_eq
  intro i hi
  rw [intEn_word_getLsbD, BitVec.getLsbD_and]
  rcases i with _ | _ | i
  · simp [IntEn.ofWord]
  · simp [IntEn.ofWord]
  · simp [BitVec.getLsbD_ofNat, Nat.testBit_succ]

theorem intEn_word_unused (e : IntEn) : e.word &&& 0xFFFFFFFC#32 = 0#32 := by
  obtain ⟨d, r⟩ := e
  cases d <;> cases r <;> decide

theorem profOfWord_val (w : Word) : (profOfWord w).val = min (u32 w % 32) 30 := by
  simp [profOfWord, u32, BitVec.extractLsb'_toNat]

/-- A PROF register as the host reads it (R40). -/
theorem u32_prof (f : Fin 31) : u32 (BitVec.ofNat 32 f.val) = f.val := u32_ofNat (by omega)

theorem prof_unused : ∀ f : Fin 31, BitVec.ofNat 32 f.val &&& ~~~0x0000001F#32 = 0#32 := by decide

theorem carry_unused : ∀ n < 2, BitVec.ofNat 32 n &&& ~~~0x00000001#32 = 0#32 := by decide

theorem byte_unused (v : Byte) : v.setWidth 32 &&& ~~~0x000000FF#32 = 0#32 := by
  apply BitVec.eq_of_getLsbD_eq
  intro i hi
  rcases Nat.lt_or_ge i 8 with h | h
  · interval_cases i <;> simp
  · simp [BitVec.getLsbD_of_ge v i h]

/-- A value that a PROF register can hold is stored as it is (R40). -/
theorem ofNat_profOfWord {w : Word} (h : u32 w ≤ 30) : BitVec.ofNat 32 (profOfWord w).val = w := by
  apply BitVec.eq_of_toNat_eq
  have := u32_prof (profOfWord w)
  rw [profOfWord_val] at this ⊢
  simp only [u32] at h this ⊢
  omega

/-! ## The register map by register -/

/-- The Access column of R58, by register. -/
def accessOf : HostReg → Access
  | .cmd => .wo
  | .status => .w1c
  | .intEn | .arg _ => .rw
  | .prof0 | .prof1 => .warl
  | _ => .ro

/-- The used bits of R58, by register. -/
def usedBits : HostReg → Word
  | .status => 0x000FFFFF#32
  | .intEn => 0x00000003#32
  | .prof0 | .prof1 => 0x0000001F#32
  | .encLowHi => 0x00000001#32
  | .encCache => 0x000000FF#32
  | _ => 0xFFFFFFFF#32

theorem row_access_used : ∀ row ∈ registerRows, row.access = accessOf row.reg ∧ row.used = usedBits row.reg := by decide

theorem row_reset : ∀ row ∈ registerRows, State.reset.readReg row.reg = row.reset := by decide

/-- No register reads a bit that R58 does not list as used. -/
theorem readReg_unused (s : State) (r : HostReg) : s.readReg r &&& ~~~usedBits r = 0#32 := by
  cases r with
  | status => exact statusWord_unused s
  | intEn => exact intEn_word_unused s.intEn
  | prof0 => exact prof_unused s.prof0
  | prof1 => exact prof_unused s.prof1
  | encLowHi => exact carry_unused _ (by have := s.enc.low.isLt; omega)
  | encCache => exact byte_unused s.enc.cache
  | _ => simp [usedBits]

/-- A write to a register marked RO is ignored (R53). -/
theorem writeReg_ro {r : HostReg} (h : accessOf r = .ro) (s : State) (w : Word) : s.writeReg r w = s := by
  cases r with
  | cmd | status | intEn | prof0 | prof1 | arg => cases h
  | _ => rfl

/-- Every register is written and read as its Access column says. -/
theorem access_holds (r : HostReg) : (accessOf r).holds r (usedBits r) := by
  have warl : ∀ w : Word, u32 (BitVec.ofNat 32 (profOfWord w).val) ≤ 30 ∧
      (u32 w ≤ 30 → BitVec.ofNat 32 (profOfWord w).val = w) := fun w =>
    ⟨by rw [u32_prof]; exact Nat.le_of_lt_succ (profOfWord w).isLt, ofNat_profOfWord⟩
  cases r with
  | cmd => exact fun _ => rfl
  | status =>
    intro s w
    obtain ⟨b1, b2, b3⟩ := statusWord_getLsbD s
    obtain ⟨c1, c2, c3⟩ := statusWord_getLsbD (s.writeReg .status w)
    rw [BitVec.and_assoc, BitVec.and_comm 0x0000000E#32, ← BitVec.and_assoc]
    refine and_w1c_eq ?_ ?_ ?_
    · simp only [State.readReg, c1, BitVec.getLsbD_and, BitVec.getLsbD_not, b1]
      simp [State.writeReg, Status.writeOneToClear]
    · simp only [State.readReg, c2, BitVec.getLsbD_and, BitVec.getLsbD_not, b2]
      simp [State.writeReg, Status.writeOneToClear]
    · simp only [State.readReg, c3, BitVec.getLsbD_and, BitVec.getLsbD_not, b3]
      simp [State.writeReg, Status.writeOneToClear]
  | intEn => exact fun _ w => intEn_word_ofWord w
  | prof0 => exact fun _ w => warl w
  | prof1 => exact fun _ w => warl w
  | arg i =>
    intro s w
    show (s.writeArg i w).argWord i = w &&& 0xFFFFFFFF#32
    rw [argWord_writeArg, if_pos rfl]
    exact BitVec.and_allOnes.symm
  | _ => exact fun s w => writeReg_ro rfl s w

/-- Settles O8: row by row through `regAt`, `accessOf` and `usedBits`. -/
theorem registerMap : Obligations.RegisterMap := by
  refine ⟨fun row hrow => ?_, fun offset r => regAt_eq_some, fun s offset hlt h4 hno => ?_⟩
  · obtain ⟨hacc, hused⟩ := row_access_used row hrow
    rw [hacc, hused]
    exact ⟨regAt_row row hrow, row_reset row hrow, fun s => readReg_unused s row.reg, access_holds row.reg⟩
  · have ht : targetOf s 4 (s.baseAddr + offset) = .register none := by
      rw [targetOf_window s hlt h4, regAt_eq_none hno]
    exact ⟨by rw [hostRead, ht]; rfl, fun w => by rw [hostWrite, ht]⟩

/-! ## Writes, register by register -/

theorem step_write_idle {s : State} {offset : Nat} {r : HostReg} {w : Word} {rest : List Input} (hr : regAt offset = some r)
    (hb : s.status.busy = false) (h : s.inputs = .write 4 (s.baseAddr + offset) w :: rest) :
    step s = .next ((s.withInputs rest).writeReg r w) := by
  rw [step_write_reg hr h, hostWriteReg_idle (s := s.withInputs rest) hb]

theorem step_write_busy {s : State} {offset : Nat} {r : HostReg} {w : Word} {rest : List Input} (hr : regAt offset = some r)
    (hb : s.status.busy = true) (hne : r ≠ .intEn) (h : s.inputs = .write 4 (s.baseAddr + offset) w :: rest) :
    step s = .next (s.withInputs rest).markOverrun := by
  rw [step_write_reg hr h, hostWriteReg_busy (s := s.withInputs rest) hb hne]

/-- Settles O9: INT_EN's word bit by bit, and the busy write to any other register. -/
theorem intEnRegister : Obligations.IntEnRegister := by
  refine ⟨fun s w rest h => ?_, fun s => ⟨?_, ?_, intEn_word_unused s.intEn⟩, rfl, fun s offset r w rest hb hr hne h => ?_⟩
  · rw [step_write_reg (r := .intEn) rfl h, hostWriteReg_intEn]
    rfl
  · exact intEn_word_getLsbD s.intEn 0
  · exact intEn_word_getLsbD s.intEn 1
  · exact ⟨_, step_write_busy hr hb hne h, rfl⟩

theorem regAt_arg : ∀ i : Fin 8, regAt (0x020 + 4 * i.val) = some (.arg i) := by decide

/-- Settles O10: each write as the update that `writeReg` makes of an idle core. -/
theorem operandRegisters : Obligations.OperandRegisters := by
  intro s w rest hb
  refine ⟨fun h => ?_, fun h => ?_, fun i h => ?_⟩
  · exact ⟨_, step_write_idle (r := .prof0) rfl hb h, rfl, profOfWord_val w, (u32_prof _).trans (profOfWord_val w)⟩
  · exact ⟨_, step_write_idle (r := .prof1) rfl hb h, rfl, profOfWord_val w, (u32_prof _).trans (profOfWord_val w)⟩
  · rw [Nat.add_assoc] at h
    exact ⟨_, step_write_idle (regAt_arg i) hb h, writeArg_frame _ i w, fun j => argWord_writeArg _ i j w⟩

/-- Settles O11: a read-only register's `writeReg` is the identity. -/
theorem readOnlyRegistersIgnoreWrites : Obligations.ReadOnlyRegistersIgnoreWrites := by
  refine ⟨fun s row w rest hb hrow hro h => ?_, fun s w => ?_⟩
  · rw [(row_access_used row hrow).1] at hro
    rw [step_write_idle (regAt_row row hrow) hb h, writeReg_ro hro]
    rfl
  · simp [State.writeReg, Status.writeOneToClear]

/-- Settles O12: each W1C bit is cleared on its own. -/
theorem statusWriteOneToClear : Obligations.StatusWriteOneToClear := by
  intro s w rest hb h
  refine ⟨_, step_write_idle (r := .status) rfl hb h, rfl, hb, ?_⟩
  simp only [State.writeReg, Status.writeOneToClear, withInputs_status]
  refine ⟨?_, ?_, ?_⟩
  · cases w.getLsbD 1 <;> simp
  · cases w.getLsbD 2 <;> simp
  · cases w.getLsbD 3 <;> simp

/-- Settles O13: the dropped write is `markOverrun`. -/
theorem writesWhileBusyAreDropped : Obligations.WritesWhileBusyAreDropped := by
  intro s row w rest hb hrow hne h
  exact step_write_busy (regAt_row row hrow) hb hne h

/-! ## Reads -/

/-- The registers that R55 lists as stable while BUSY = 1, and CMD (R32). -/
theorem stableWhileBusy_iff {r : HostReg} :
    r.stableWhileBusy = true ↔ r ∈ [.id, .cmd, .status, .intEn, .prof0, .prof1] ∨ ∃ i, r = .arg i := by
  cases r <;> simp [HostReg.stableWhileBusy]

theorem hostReadReg_current {s : State} {r : HostReg} (h : s.status.busy = false ∨ r.stableWhileBusy = true) :
    s.hostReadReg r = { s with rdata := s.readReg r } := by
  unfold State.hostReadReg
  rw [if_neg (by rcases h with h | h <;> simp [h])]
  rfl

theorem hostReadReg_free {s : State} {r : HostReg} (hb : s.status.busy = true) (hr : ¬r.stableWhileBusy = true) :
    s.hostReadReg r = { s with rdata := Config.busyRead s.draws, draws := s.draws + 1 } := by
  unfold State.hostReadReg
  rw [if_pos (by simp [hb, hr])]
  rfl

/-- Settles O14: a read is the current value or a free draw, by `stableWhileBusy`. -/
theorem hostReadsHaveNoSideEffect : Obligations.HostReadsHaveNoSideEffect := by
  intro s row rest hrow h
  have hstep := step_read_reg (regAt_row row hrow) h
  simp only [← stableWhileBusy_iff]
  refine ⟨fun hc => ?_, fun hb hc => ?_⟩
  · rw [hstep, hostReadReg_current (s := s.withInputs rest) hc]
    rfl
  · rw [hstep, hostReadReg_free (s := s.withInputs rest) hb hc]
    rfl

end Machine
end Sys2Proof
end

section
/-! SUPPORT. The statements about the step that runs a command: acceptance in one step, execution in the next. -/

namespace Sys2Proof
namespace Machine

theorem step_engine {s : State} {rest : List Input} (h : s.engineNext rest) : step s = engineMove (s.withInputs rest) := by
  rcases h with ⟨hin, rfl⟩ | hin
  · rw [step_nil hin, withInputs_self hin]
  · exact step_cons hin

/-- The engine's step runs the command that the latch decodes to. -/
theorem step_runs {s : State} {rest : List Input} {i : Instr} (h : s.engineNext rest) (hb : s.status.busy = true)
    (hd : decode s.latch = .ok i) : step s = exec i (s.withInputs rest) := by
  rw [step_engine h, engineMove_busy (s := s.withInputs rest) hb, runLatched_ok (s := s.withInputs rest) hd]

/-- Settles O5: the step is the engine's move. -/
theorem stepRunsTheLatchedCommand : Obligations.StepRunsTheLatchedCommand := by
  intro s i hb hd
  refine ⟨fun hin => ?_, fun rest hin => step_runs (.inr hin) hb hd⟩
  rw [step_runs (.inl ⟨hin, rfl⟩) hb hd, withInputs_self hin]

/-- The decoder reads every command's word back (R136). -/
theorem decode_word (i : Instr) : decode (encode i) = .ok i := by
  cases i with
  | cdf b | freq b | icdf b | encSymb b | decSymb b => revert b; decide
  | quant p | dequant p | compress p => cases p <;> decide
  | qmul cnj => cases cnj <;> decide
  | _ => decide

/-- Settles O6: the acceptance is `writeReg` of CMD, and the decoder reads the accepted word back. -/
theorem commandRunsInTwoSteps : Obligations.CommandRunsInTwoSteps := by
  refine ⟨fun s i rest hb h => ?_, fun s hb h => ?_⟩
  · intro t
    exact ⟨step_write_idle (r := .cmd) rfl hb h, (stepRunsTheLatchedCommand t i rfl (decode_word i)).1⟩
  · rw [step_nil h, engineMove_idle hb]

end Machine
end Sys2Proof
end

section
/-! SUPPORT. BUF by numbers: MemRead as a sum of bytes, and what MemRead returns of the bytes that MemWrite left (20_memory.md R84,
R85, R107). -/

namespace Sys2Proof
namespace Machine

/-- The number that bytes make is the sum of R84. -/
theorem number_eq_sum (m : Buf) (a n : Nat) :
    m.number a n = ∑ k ∈ Finset.range n, (m.byte (a + k)).toNat * 2 ^ (8 * k) := by
  induction n generalizing a with
  | zero => rfl
  | succ n ih =>
    rw [Buf.number, ih, Finset.sum_range_succ', Finset.mul_sum, Nat.add_comm]
    refine congrArg₂ (· + ·) (Finset.sum_congr rfl fun k _ => ?_) (by simp)
    rw [Nat.add_right_comm, Nat.add_assoc, Nat.mul_add, pow_add]
    ring

theorem two_pow_eight_mul (k : Nat) : 2 ^ (8 * k) = 256 ^ k := Nat.pow_mul 2 8 k

/-- A byte of v is a byte of its n low bytes, for the bytes below n (R85). -/
theorem ofNat_mod_div {v n k : Nat} (h : k < n) :
    BitVec.ofNat 8 (v % 2 ^ (8 * n) / 2 ^ (8 * k)) = BitVec.ofNat 8 (v / 256 ^ k) := by
  obtain ⟨d, rfl⟩ := Nat.exists_eq_add_of_lt h
  apply BitVec.eq_of_toNat_eq
  rw [BitVec.toNat_ofNat, BitVec.toNat_ofNat, two_pow_eight_mul, two_pow_eight_mul, Nat.add_assoc, pow_add,
    Nat.mod_mul_right_div_self, pow_succ]
  exact Nat.mod_mod_of_dvd _ (Nat.dvd_mul_left _ _)

/-- Settles O17: MemRead is the sum of R84, and MemWrite's inversion is R85. -/
theorem memoryPrimitives : Obligations.MemoryPrimitives := by
  intro m a n v _ hle
  refine ⟨by rw [memRead_of_le hle, number_eq_sum], ?_⟩
  obtain ⟨m', hm⟩ := memWrite_of_le v hle
  obtain ⟨-, hsize, -, hwf, hbytes, hframe⟩ := memWrite_eq_some hm
  exact ⟨m', hm, fun k hk => by rw [hbytes k hk, ofNat_mod_div hk], hframe, hsize, hwf⟩

/-- The n bytes from the j-th on, of the bytes that MemWrite stored, are those of v. -/
theorem number_of_memWrite {m m' : Buf} {a w v j n : Nat} (h : memWrite m a w v = some m') (hn : j + n ≤ w) :
    m'.number (a + j) n = v / 256 ^ j % 256 ^ n := by
  induction n generalizing j with
  | zero => simp [Buf.number, Nat.mod_one]
  | succ n ih =>
    obtain ⟨-, -, -, -, hbytes, -⟩ := memWrite_eq_some h
    rw [Buf.number, hbytes j (by omega), Nat.add_assoc, ih (by omega), BitVec.toNat_ofNat, pow_succ' 256 n, pow_succ 256 j,
      ← Nat.div_div_eq_div_mul, Nat.mod_mul]

/-- MemRead of bytes that MemWrite stored. -/
theorem memRead_of_memWrite {m m' : Buf} {a w v j n : Nat} (h : memWrite m a w v = some m') (hw : a + w ≤ m.size)
    (hn : j + n ≤ w) : memRead m' (a + j) n = some (v / 256 ^ j % 256 ^ n) := by
  obtain ⟨-, hsize, -⟩ := memWrite_eq_some h
  rw [memRead_of_le (by omega), number_of_memWrite h hn]

/-- Settles O18: each read is of bytes that the write stored. -/
theorem mixedWidthAccesses : Obligations.MixedWidthAccesses := by
  intro m m' a v hle h
  refine ⟨fun k hk => ?_, memRead_of_memWrite h hle (Nat.le_refl 4), ?_⟩
  · rw [memRead_of_memWrite h hle (by omega), two_pow_eight_mul, pow_one]
  · have hv : v.toNat < 256 ^ 4 := v.isLt
    have hread := memRead_of_memWrite h hle (j := 0) (n := 4) (Nat.le_refl 4)
    rwa [pow_zero, Nat.div_one, Nat.mod_eq_of_lt hv] at hread

end Machine
end Sys2Proof
end

section
/-! SUPPORT. The window on the host bus, range by range (20_memory.md R82, R88 to R90): where an access goes, and what it then does. -/

namespace Sys2Proof
namespace Machine

/-! ## Where an access goes -/

/-- An access at BASE_ADDR plus an offset goes where the offset says. -/
theorem targetOf_add (s : State) (width offset : Nat) :
    targetOf s width (s.baseAddr + offset) = targetAt s width (s.baseAddr + offset) offset := by
  simp [targetOf]

theorem touchesBuf_iff {size width offset : Nat} :
    touchesBuf size width offset = true ↔ offset < 0x100000 + size ∧ 0x100000 < offset + width := by
  simp only [touchesBuf, Bool.and_eq_true, decide_eq_true_eq]
  rfl

theorem bufAccessOk_iff {size width offset : Nat} :
    bufAccessOk size width offset = true ↔
      width ∈ [1, 2, 4] ∧ offset % width = 0 ∧ offset + width ≤ 0x100000 + size := by
  simp only [bufAccessOk, Bool.and_eq_true, Bool.or_eq_true, beq_iff_eq, decide_eq_true_eq, List.mem_cons, List.not_mem_nil,
    or_false, or_assoc, and_assoc]
  rfl

section
variable {s : State} {width addr offset : Nat}

theorem targetAt_register_refused (h : offset < regWindowSize) (hne : ¬(width = 4 ∧ offset % 4 = 0)) :
    targetAt s width addr offset = .refuse (.registerAccess width addr) := by
  rw [targetAt, if_pos h, if_neg hne]

/-- Above the register window an access that touches BUF is settled by BUSY and by its shape (R89, R90). -/
theorem targetAt_touching (h : regWindowSize ≤ offset) (ht : touchesBuf s.buf.size width offset = true) :
    targetAt s width addr offset =
      if s.status.busy then .refuse (.bufAccessWhileBusy addr)
      else if bufAccessOk s.buf.size width offset then .buf (offset - bufOffset)
      else .refuse (.bufAccess width addr) := by
  rw [targetAt, if_neg (Nat.not_lt.2 h), if_pos ht]

/-- Above the register window and off BUF the window is reserved (R82). -/
theorem targetAt_reserved (h : regWindowSize ≤ offset) (hw : offset < windowSize)
    (ht : ¬touchesBuf s.buf.size width offset = true) : targetAt s width addr offset = .reserved := by
  rw [targetAt, if_neg (Nat.not_lt.2 h), if_neg ht, if_pos hw]

/-- An access that goes to BUF is inside it: a natural alignment keeps an access that touches BUF from beginning below it. -/
theorem targetAt_eq_buf {a : Nat} (h : targetAt s width addr offset = .buf a) : a + width ≤ s.buf.size := by
  by_cases hreg : offset < regWindowSize
  · rw [targetAt, if_pos hreg] at h
    split at h <;> cases h
  · by_cases ht : touchesBuf s.buf.size width offset = true
    · rw [targetAt_touching (Nat.not_lt.1 hreg) ht] at h
      split at h
      · cases h
      · split at h
        next hok =>
          obtain rfl := Target.buf.inj h
          obtain ⟨hwidth, haligned, hend⟩ := bufAccessOk_iff.1 hok
          obtain ⟨-, hbegin⟩ := touchesBuf_iff.1 ht
          simp only [List.mem_cons, List.not_mem_nil, or_false] at hwidth
          simp only [bufOffset]
          rcases hwidth with rfl | rfl | rfl <;> omega
        next => cases h
    · rw [targetAt, if_neg hreg, if_neg ht] at h
      split at h <;> cases h

theorem targetOf_eq_buf {a : Nat} (h : targetOf s width addr = .buf a) : a + width ≤ s.buf.size := by
  unfold targetOf at h
  split at h
  · cases h
  · exact targetAt_eq_buf h

/-- An aligned access of 1, 2 or 4 bytes inside BUF goes to BUF while BUSY = 0 (R89). -/
theorem targetAt_buf (hb : s.status.busy = false) (hwidth : width ∈ [1, 2, 4]) (haligned : offset % width = 0)
    (hbegin : 0x100000 ≤ offset) (hend : offset + width ≤ 0x100000 + s.buf.size) :
    targetAt s width addr offset = .buf (offset - 0x100000) := by
  have hpos : 0 < width := Nat.pos_of_ne_zero fun h0 => absurd (h0 ▸ hwidth) (by decide)
  rw [targetAt_touching (Nat.le_trans (by decide) hbegin) (touchesBuf_iff.2 (by omega)), hb, if_neg Bool.false_ne_true,
    if_pos (bufAccessOk_iff.2 ⟨hwidth, haligned, hend⟩)]
  rfl

end

/-! ## What the access then does -/

theorem targetOf_withInputs (s : State) (rest : List Input) (width addr : Nat) :
    targetOf (s.withInputs rest) width addr = targetOf s width addr := rfl

section
variable {s : State} {width offset : Nat} {v : Word} {rest : List Input}

theorem step_read_buf {a : Nat} (h : s.inputs = .read width (s.baseAddr + offset) :: rest)
    (ht : targetAt s width (s.baseAddr + offset) offset = .buf a) :
    step s = .next { s with inputs := rest, rdata := BitVec.ofNat 32 (s.buf.number a width) } := by
  have hread : memRead (s.withInputs rest).buf a width = some (s.buf.number a width) := memRead_of_le (targetAt_eq_buf ht)
  rw [step_cons h, deliver, hostRead, targetOf_withInputs, targetOf_add, ht]
  simp only [hread]
  rfl

theorem step_write_buf {a : Nat} {m : Buf} (h : s.inputs = .write width (s.baseAddr + offset) v :: rest)
    (ht : targetAt s width (s.baseAddr + offset) offset = .buf a) (hm : memWrite s.buf a width (u32 v) = some m) :
    step s = .next { s with inputs := rest, buf := m } := by
  have hwrite : memWrite (s.withInputs rest).buf a width v.toNat = some m := hm
  rw [step_cons h, deliver, hostWrite, targetOf_withInputs, targetOf_add, ht]
  simp only [hwrite]
  rfl

theorem step_read_reserved (h : s.inputs = .read width (s.baseAddr + offset) :: rest)
    (ht : targetAt s width (s.baseAddr + offset) offset = .reserved) :
    step s = .next { s with inputs := rest, rdata := 0#32 } := by
  rw [step_cons h, deliver, hostRead, targetOf_withInputs, targetOf_add, ht]
  rfl

theorem step_write_reserved (h : s.inputs = .write width (s.baseAddr + offset) v :: rest)
    (ht : targetAt s width (s.baseAddr + offset) offset = .reserved) : step s = .next { s with inputs := rest } := by
  rw [step_cons h, deliver, hostWrite, targetOf_withInputs, targetOf_add, ht]
  rfl

theorem step_access_refused {r : Refusal}
    (h : s.inputs = .read width (s.baseAddr + offset) :: rest ∨ s.inputs = .write width (s.baseAddr + offset) v :: rest)
    (ht : targetAt s width (s.baseAddr + offset) offset = .refuse r) : step s = .refused r := by
  rcases h with h | h
  · rw [step_cons h, deliver, hostRead, targetOf_withInputs, targetOf_add, ht]
  · rw [step_cons h, deliver, hostWrite, targetOf_withInputs, targetOf_add, ht]

end

/-! ## The statements -/

/-- Settles O15: the target of either access is the refusal that R88 or R90 asks for. -/
theorem refusedHostAccesses : Obligations.RefusedHostAccesses := by
  intro s width offset v rest h
  refine ⟨fun hreg hshape => ?_, fun hoff hbusy hend hbegin => ?_⟩
  · exact step_access_refused h (targetAt_register_refused hreg hshape)
  · refine step_access_refused h ?_
    rw [targetAt_touching hoff (touchesBuf_iff.2 ⟨hbegin, hend⟩), if_pos hbusy]

/-- Settles O19: the target is reserved, which reads 0 and ignores writes. -/
theorem reservedRanges : Obligations.ReservedRanges := by
  intro s width offset v rest hoff hwindow houtside
  have ht : targetAt s width (s.baseAddr + offset) offset = .reserved :=
    targetAt_reserved hoff hwindow (by rw [touchesBuf_iff]; omega)
  exact ⟨fun h => step_read_reserved h ht, fun h => step_write_reserved h ht⟩

/-- Settles O16: an access inside BUF is MemRead or MemWrite at its address, and any other that touches BUF has a refusal for its
target. -/
theorem bufHostAccess : Obligations.BufHostAccess := by
  intro s width offset v rest hidle
  refine ⟨fun hwidth haligned hbegin hend => ?_, fun hoff hend hbegin hshape h => ?_⟩
  · have ht : targetAt s width (s.baseAddr + offset) offset = .buf (offset - 0x100000) :=
      targetAt_buf hidle hwidth haligned hbegin hend
    refine ⟨fun h => step_read_buf h ht, fun h => ?_⟩
    obtain ⟨m, hm⟩ := memWrite_of_le (u32 v) (targetAt_eq_buf ht)
    obtain ⟨-, -, -, -, hbytes, hframe⟩ := memWrite_eq_some hm
    exact ⟨_, step_write_buf h ht hm, rfl, fun k hk => by rw [hbytes k hk, two_pow_eight_mul], hframe⟩
  · refine step_access_refused h ?_
    rw [targetAt_touching hoff (touchesBuf_iff.2 ⟨hbegin, hend⟩), hidle, if_neg Bool.false_ne_true,
      if_neg (mt bufAccessOk_iff.1 hshape)]

end Machine
end Sys2Proof
end

section
/-! SUPPORT. No engine access leaves BUF (20_memory.md R80, R81): a computation that meets no missing byte, with one rule per way of
composing computations, and the coders and the block commands by following their text. What a part of a computation leaves for the
next is read off the `Ends` lemmas. -/

namespace Sys2Proof
namespace Machine

/-- A computation meets no address that does not exist. -/
def InsideBuf {π α : Type} (x : Except (Stop π) α) : Prop := ∀ a, x ≠ .error (.noByte a)

/-! ## Composing computations -/

theorem insideBuf_ok {π α : Type} (a : α) : InsideBuf (.ok a : Except (Stop π) α) := fun _ h => by cases h

theorem insideBuf_raised {π α : Type} (e : ErrorCode) (site : Site) (p : π) :
    InsideBuf (.error (.raised e site p) : Except (Stop π) α) := fun _ h => by cases h

/-- The next computation may rest on what `Ends` says of the answer of the one before. -/
theorem insideBuf_bind_ends {π α β : Type} {P : α → Prop} {E : ErrorCode → π → Prop} {x : Except (Stop π) α}
    {f : α → Except (Stop π) β} (h : InsideBuf x) (he : Ends P E x) (k : ∀ a, P a → InsideBuf (f a)) : InsideBuf (x.bind f) := by
  intro addr hx
  rcases bind_eq_error.1 hx with hx | ⟨a, ha, hf⟩
  · exact h addr hx
  · exact k a ((ends_iff.1 he).1 a ha) addr hf

theorem insideBuf_bind {π α β : Type} {x : Except (Stop π) α} {f : α → Except (Stop π) β} (h : InsideBuf x)
    (k : ∀ a, InsideBuf (f a)) : InsideBuf (x.bind f) :=
  insideBuf_bind_ends (P := fun _ => True) (E := fun _ _ => True) h (ends_iff.2 ⟨fun _ _ => trivial, fun _ _ _ _ => trivial⟩)
    fun a _ => k a

theorem insideBuf_map {π α β : Type} {x : Except (Stop π) α} {f : α → β} (h : InsideBuf x) : InsideBuf (x.map f) :=
  fun addr hx => h addr (map_eq_error.1 hx)

theorem insideBuf_liftStop {π ρ α : Type} {x : Except (Stop π) α} {f : π → ρ} (h : InsideBuf x) : InsideBuf (liftStop f x) := by
  intro addr hx
  obtain ⟨st, hst, hmap⟩ := liftStop_eq_error.1 hx
  exact h addr (stop_map_eq_noByte.1 hmap.symm ▸ hst)

theorem insideBuf_orNoByte {π α : Type} {addr : Nat} {o : Option α} {a : α} (h : o = some a) :
    InsideBuf (orNoByte addr o : Except (Stop π) α) := h ▸ insideBuf_ok a

theorem insideBuf_load {π : Type} {m : Buf} {a : Nat} (h : a < m.size) :
    InsideBuf (orNoByte a (m.load a) : Except (Stop π) Byte) := insideBuf_orNoByte (load_of_lt h)

theorem insideBuf_store {π : Type} {m : Buf} {a : Nat} {v : Byte} (h : a < m.size) :
    InsideBuf (orNoByte a (m.store a v) : Except (Stop π) Buf) := insideBuf_orNoByte (store_of_lt v h)

/-! ## The range coder -/

theorem insideBuf_of_encStops {α : Type} {site : Site} {p : EncPort} {x : Except (Stop EncPort) α}
    (h : ∀ e, x = .error e → EncStops site p e) (hp : u32 p.enc.outEnd ≤ p.buf.size) : InsideBuf x :=
  fun addr hx => absurd (h (.noByte addr) hx) (Nat.not_lt.2 hp)

theorem insideBuf_of_decStops {α : Type} {site : Site} {m : Buf} {d : Decoder} {x : Except (Stop Decoder) α}
    (h : ∀ e, x = .error e → DecStops site m d e) (hd : u32 d.inEnd ≤ m.size) : InsideBuf x :=
  fun addr hx => absurd (h (.noByte addr) hx) (Nat.not_lt.2 hd)

theorem encodeFn_insideBuf {site : Site} {cum fr : Nat} {p : EncPort} (h : u32 p.enc.outEnd ≤ p.buf.size) :
    InsideBuf (encodeFn site cum fr p) := insideBuf_of_encStops (fun _ => encodeFn_stops) h

theorem flushFn_insideBuf {site : Site} {p : EncPort} (h : u32 p.enc.outEnd ≤ p.buf.size) : InsideBuf (flushFn site p) :=
  insideBuf_of_encStops (fun _ => flushFn_stops) h

theorem decInitFn_insideBuf {site : Site} {m : Buf} {d : Decoder} (h : u32 d.inEnd ≤ m.size) : InsideBuf (decInitFn site m d) :=
  insideBuf_of_decStops (fun _ => decInitFn_stops) h

theorem consumeFn_insideBuf {site : Site} {m : Buf} {cum fr : Nat} {d : Decoder} (h : u32 d.inEnd ≤ m.size) :
    InsideBuf (consumeFn site m cum fr d) := insideBuf_of_decStops (fun _ => consumeFn_stops) h

theorem decodeSymbol_insideBuf {site : Site} {m : Buf} {b : Bucket} {d : Decoder} (h : u32 d.inEnd ≤ m.size) :
    InsideBuf (decodeSymbol site m b d) := insideBuf_map (consumeFn_insideBuf h)

/-! ## COMPRESS, phase 1 -/

theorem sampleComponent_insideBuf {sa i n : Nat} (c : Fin 4) {m : Buf} (hi : i < n) (h : sa + 16 * n ≤ m.size) :
    InsideBuf (sampleComponent sa i c m) :=
  insideBuf_map (insideBuf_orNoByte (memRead_of_le (by omega)))

theorem readSample_insideBuf {sa i n : Nat} {m : Buf} (hi : i < n) (h : sa + 16 * n ≤ m.size) : InsideBuf (readSample sa i m) :=
  insideBuf_bind (sampleComponent_insideBuf 0 hi h) fun _ => insideBuf_bind (sampleComponent_insideBuf 1 hi h) fun _ =>
    insideBuf_bind (sampleComponent_insideBuf 2 hi h) fun _ => insideBuf_bind (sampleComponent_insideBuf 3 hi h) fun _ =>
      insideBuf_ok _

theorem quantChannel_insideBuf {f ka i n : Nat} {c : Fin 4} {a pr : Int} {m0 m : Buf} (hi : i < n) (h : ka + 4 * n ≤ m0.size)
    (hm : BufKept m0 m) : InsideBuf (quantChannel f ka i c a pr m) := by
  have hsize := hm.size
  unfold quantChannel
  simp only
  split
  · exact insideBuf_raised _ _ _
  · exact insideBuf_map (insideBuf_store (by omega))

theorem quantSample_insideBuf {f sa ka i n : Nat} {w : Predictor} {m0 m : Buf} (hi : i < n) (hsa : sa + 16 * n ≤ m0.size)
    (hka : ka + 4 * n ≤ m0.size) (hm : BufKept m0 m) : InsideBuf (quantSample f sa ka i w m) :=
  insideBuf_bind (readSample_insideBuf hi (hm.size ▸ hsa)) fun _ =>
    insideBuf_bind_ends (quantChannel_insideBuf hi hka hm) (quantChannel_ends hm) fun _ h0 =>
      insideBuf_bind_ends (quantChannel_insideBuf hi hka h0) (quantChannel_ends h0) fun _ h1 =>
        insideBuf_bind_ends (quantChannel_insideBuf hi hka h1) (quantChannel_ends h1) fun _ h2 =>
          insideBuf_bind (quantChannel_insideBuf hi hka h2) fun _ => insideBuf_ok _

/-- Phase 1 stays inside the sample region and the first 4n bytes of the scratch region (R360, R362). -/
theorem quantSamples_insideBuf {f sa ka n left i : Nat} {w : Predictor} {m0 m : Buf} (hi : i + left ≤ n)
    (hsa : sa + 16 * n ≤ m0.size) (hka : ka + 4 * n ≤ m0.size) (hm : BufKept m0 m) :
    InsideBuf (quantSamples f sa ka left i w m) := by
  induction left generalizing i w m with
  | zero => exact insideBuf_ok _
  | succ left ih =>
    exact insideBuf_bind_ends (quantSample_insideBuf (by omega) hsa hka hm) (quantSample_ends hm) fun _ hr =>
      ih (by omega) hr.2

/-! ## COMPRESS, phase 2 -/

section
variable {ka i n : Nat} {v0 var : Quad Word} {p0 p : EncPort} (hend : u32 p0.enc.outEnd ≤ p0.buf.size)
  (hka : ka + 4 * n ≤ p0.buf.size)
include hend hka

theorem encodeChannel_insideBuf {c : Fin 4} (hi : i < n) (h : Coding v0 p0 (var, p)) :
    InsideBuf (encodeChannel ka i c var p) := by
  have hsize : p.buf.size = p0.buf.size := h.1.grows.size
  have hstop : p.enc.outEnd = p0.enc.outEnd := h.1.grows.stop
  exact insideBuf_bind (insideBuf_load (by omega)) fun _ =>
    insideBuf_bind (encodeFn_insideBuf (by rwa [hsize, hstop])) fun _ => insideBuf_ok _

theorem encodeSample_insideBuf (hi : i < n) (h : Coding v0 p0 (var, p)) : InsideBuf (encodeSample ka i var p) :=
  insideBuf_bind_ends (encodeChannel_insideBuf hend hka hi h) (encodeChannel_coding h) fun _ h0 =>
    insideBuf_bind_ends (encodeChannel_insideBuf hend hka hi h0) (encodeChannel_coding h0) fun _ h1 =>
      insideBuf_bind_ends (encodeChannel_insideBuf hend hka hi h1) (encodeChannel_coding h1) fun _ h2 =>
        encodeChannel_insideBuf hend hka hi h2

theorem encodeSamples_insideBuf {left : Nat} (hi : i + left ≤ n) (h : Coding v0 p0 (var, p)) :
    InsideBuf (encodeSamples ka left i var p) := by
  induction left generalizing i var p with
  | zero => exact insideBuf_ok _
  | succ left ih =>
    exact insideBuf_bind_ends (encodeSample_insideBuf hend hka (by omega) h) (encodeSample_coding h) fun _ hr =>
      ih (by omega) hr

end

/-- Phase 2 stays inside the scratch region and the output region (R360, R361). -/
theorem entropyCode_insideBuf {f ka n oa oc : Nat} {var : Quad Word} {p : EncPort} (hoa : oa + oc ≤ p.buf.size)
    (hka : ka + 4 * n ≤ p.buf.size) (hmax : p.buf.size ≤ Config.bufSizeMax) :
    InsideBuf (entropyCode f ka n oa oc var p) := by
  unfold entropyCode
  split
  · exact insideBuf_raised _ _ _
  · refine insideBuf_bind_ends (insideBuf_store (by omega)) (E := fun _ _ => True)
      (ends_orNoByte fun _ hm => store_bufKept hm) fun m hm => ?_
    have hend : u32 (encoderStart (oa + 1) (oa + oc)).outEnd ≤ m.size :=
      hm.size ▸ (encoderStart_ptrsInside (base := oa + 1) (stop := oa + oc) (by omega) hoa hmax).2.2
    have hstart : Coding var ⟨encoderStart (oa + 1) (oa + oc), m⟩ (var, ⟨encoderStart (oa + 1) (oa + oc), m⟩) :=
      ⟨encRuns_encoderStart _ _ _, id⟩
    refine insideBuf_bind_ends (encodeSamples_insideBuf hend (hm.size ▸ hka) (Nat.zero_add n).le hstart)
      (encodeSamples_coding hstart) fun r hr => ?_
    have hr_end : u32 r.2.enc.outEnd ≤ r.2.buf.size := by
      rw [hr.1.grows.size, hr.1.grows.stop]
      exact hend
    exact insideBuf_bind (flushFn_insideBuf hr_end) fun _ => insideBuf_ok _

/-- COMPRESS after its checks. -/
theorem compressBody_insideBuf {pr : Profile} {s : State} (hsa : s.argU 0 + 16 * s.argU 1 ≤ s.buf.size)
    (hoa : s.argU 2 + s.argU 3 ≤ s.buf.size) (hka : s.argU 4 + 4 * s.argU 1 ≤ s.buf.size)
    (hmax : s.buf.size ≤ Config.bufSizeMax) : InsideBuf (compressBody pr s) := by
  have hbuf := bufKept_refl s.buf
  refine insideBuf_bind_ends (insideBuf_liftStop (quantSamples_insideBuf (Nat.zero_add _).le hsa hka hbuf))
    (E := fun _ _ => True) (ends_liftStop (ends_mono (quantSamples_ends hbuf) (fun _ h => h) fun _ _ _ => trivial)) ?_
  rintro ⟨w, m⟩ ⟨-, hm⟩
  exact insideBuf_bind (entropyCode_insideBuf (p := ⟨s.enc, m⟩) (hm.size ▸ hoa) (hm.size ▸ hka) (hm.size ▸ hmax)) fun _ =>
    insideBuf_ok _

/-! ## DECOMPRESS -/

section
variable {f i : Nat} {m : Buf} {v0 : Quad Word} {d0 d : Decoder} (hend : u32 d0.inEnd ≤ m.size)
include hend

theorem decodeChannel_insideBuf {c : Fin 4} {pr : Int} {var : Quad Word} (h : Decoding v0 d0 var d) :
    InsideBuf (decodeChannel f i c pr m var d) :=
  insideBuf_map (decodeSymbol_insideBuf (by rwa [h.1.reads.stop]))

theorem decodeSample_insideBuf {w : Predictor} (h : Decoding v0 d0 w.var d) : InsideBuf (decodeSample f i w m d) :=
  insideBuf_bind_ends (decodeChannel_insideBuf hend h) (decodeChannel_decoding h) fun _ h0 =>
    insideBuf_bind_ends (decodeChannel_insideBuf hend h0) (decodeChannel_decoding h0) fun _ h1 =>
      insideBuf_bind_ends (decodeChannel_insideBuf hend h1) (decodeChannel_decoding h1) fun _ h2 =>
        insideBuf_bind (decodeChannel_insideBuf hend h2) fun _ => insideBuf_ok _

end

section
variable {f sa i n : Nat} {m0 : Buf} {p : DecPort} (hsa : sa + 16 * n ≤ m0.size)
include hsa

theorem storeComponent_insideBuf {c : Fin 4} {v : Int} (hi : i < n) (hb : BufKept m0 p.buf) :
    InsideBuf (storeComponent sa i c v p) := by
  have hsize := hb.size
  obtain ⟨m, hm⟩ := memWrite_of_le (m := p.buf) (a := sa + 16 * i + 4 * c.val) (n := 4) (u32 (toWord v)) (by omega)
  exact insideBuf_map (insideBuf_orNoByte hm)

variable {w : Predictor} {v0 : Quad Word} {d0 : Decoder} (hend : u32 d0.inEnd ≤ m0.size)
include hend

theorem decompressSample_insideBuf (hi : i < n) (h : Decoding v0 d0 w.var p.dec) (hb : BufKept m0 p.buf) :
    InsideBuf (decompressSample f sa i w p) := by
  refine insideBuf_bind (insideBuf_liftStop (decodeSample_insideBuf (hb.size ▸ hend) h)) ?_
  rintro ⟨r, var, d⟩
  exact insideBuf_bind_ends (E := fun _ _ => True) (storeComponent_insideBuf hsa hi hb) (storeComponent_ends hb) fun _ h0 =>
    insideBuf_bind_ends (E := fun _ _ => True) (storeComponent_insideBuf hsa hi h0.2) (storeComponent_ends h0.2) fun _ h1 =>
      insideBuf_bind_ends (E := fun _ _ => True) (storeComponent_insideBuf hsa hi h1.2) (storeComponent_ends h1.2) fun _ h2 =>
        insideBuf_bind (storeComponent_insideBuf hsa hi h2.2) fun _ => insideBuf_ok _

/-- DECOMPRESS's loop stays inside the input region and the sample region (R360, R370). -/
theorem decompressSamples_insideBuf {left : Nat} (hi : i + left ≤ n) (h : Decoding v0 d0 w.var p.dec) (hb : BufKept m0 p.buf) :
    InsideBuf (decompressSamples f sa left i w p) := by
  induction left generalizing i w p with
  | zero => exact insideBuf_ok _
  | succ left ih =>
    exact insideBuf_bind_ends (decompressSample_insideBuf hsa hend (by omega) h hb) (decompressSample_decoding h hb) fun _ hr =>
      ih (by omega) hr.1 hr.2

end

/-- DECOMPRESS after its checks. -/
theorem decompressBody_insideBuf {s : State} (hia : s.argU 0 + s.argU 1 ≤ s.buf.size)
    (hsa : s.argU 3 + 16 * s.argU 2 ≤ s.buf.size) (hmax : s.buf.size ≤ Config.bufSizeMax) : InsideBuf (decompressBody s) := by
  unfold decompressBody
  split
  · exact insideBuf_raised _ _ _
  · refine insideBuf_bind (insideBuf_load (by omega)) fun header => ?_
    simp only
    split
    · exact insideBuf_raised _ _ _
    · have hend : u32 (decoderStart s.dec (s.argU 0 + 1) (s.argU 0 + s.argU 1)).inEnd ≤ s.buf.size :=
        (decoderStart_ptrsInside (base := s.argU 0 + 1) (by omega) hia hmax).2.2
      refine insideBuf_bind_ends (insideBuf_liftStop (decInitFn_insideBuf hend)) (E := fun _ _ => True)
        (ends_liftStop (ends_mono (decInitFn_runs rfl) (fun _ h => h) fun _ _ _ => trivial)) fun d hd => ?_
      exact decompressSamples_insideBuf (v0 := s.pred.var) hsa hend (Nat.zero_add _).le ⟨hd, id⟩ (bufKept_refl _)

/-! ## Every command -/

theorem outcomeOf_safe {π α : Type} {put : π → State} {ok : α → State} {r : Except (Stop π) α} (h : InsideBuf r) :
    Result.Safe (outcomeOf put ok r) := by
  rcases r with (⟨e, site, p⟩ | a) | a
  · exact trivial
  · exact h a rfl
  · exact trivial

theorem ite_safe {c : Prop} [Decidable c] {r r' : Result} (h : c → r.Safe) (h' : ¬c → r'.Safe) :
    Result.Safe (if c then r else r') := by
  split
  · exact h ‹_›
  · exact h' ‹_›

theorem State.Inv.outEnd {s : State} (h : s.Inv) : u32 s.enc.outEnd ≤ s.buf.size := h.encPtrs.2.2

theorem State.Inv.inEnd {s : State} (h : s.Inv) : u32 s.dec.inEnd ≤ s.buf.size := h.decPtrs.2.2

theorem decInit_safe {s : State} (h : s.Inv) : Result.Safe (execDecInit s) := by
  refine ite_safe (fun hr => outcomeOf_safe (decInitFn_insideBuf ?_)) fun _ => trivial
  simp only [Region.inBuf, decide_eq_true_eq] at hr
  exact (decoderStart_ptrsInside (Nat.le_add_right _ _) hr h.bufSize).2.2

theorem compress_safe {s : State} (pr : Profile) (h : s.Inv) : Result.Safe (execCompress pr s) := by
  refine ite_safe (fun hr => ite_safe (fun _ => trivial) fun hscratch => outcomeOf_safe ?_) fun _ => trivial
  obtain ⟨hsa, hoa, hka, -⟩ := regionCheck_triple hr
  exact compressBody_insideBuf hsa hoa (by simp only at hka; omega) h.bufSize

theorem decompress_safe {s : State} (h : s.Inv) : Result.Safe (execDecompress s) := by
  refine ite_safe (fun hr => outcomeOf_safe ?_) fun _ => trivial
  obtain ⟨hia, hsa, -⟩ := regionCheck_pair hr
  exact decompressBody_insideBuf hia hsa h.bufSize

/-- No command faults: the commands that access BUF stay inside it, and no other can. -/
theorem exec_safe (i : Instr) {s : State} (h : s.Inv) : Result.Safe (exec i s) := by
  cases i with
  | encSym =>
    exact ite_safe (fun _ => trivial) fun _ => ite_safe (fun _ => trivial) fun _ => outcomeOf_safe (encodeFn_insideBuf h.outEnd)
  | encSymb b =>
    exact ite_safe (fun _ => trivial) fun _ => ite_safe (fun _ => trivial) fun _ => outcomeOf_safe (encodeFn_insideBuf h.outEnd)
  | encFlush => exact ite_safe (fun _ => trivial) fun _ => outcomeOf_safe (flushFn_insideBuf h.outEnd)
  | decInit => exact decInit_safe h
  | decConsume =>
    exact ite_safe (fun _ => trivial) fun _ => ite_safe (fun _ => trivial) fun _ => outcomeOf_safe (consumeFn_insideBuf h.inEnd)
  | decSymb b => exact ite_safe (fun _ => trivial) fun _ => outcomeOf_safe (decodeSymbol_insideBuf h.inEnd)
  | compress p => exact compress_safe p h
  | decompress => exact decompress_safe h
  | icdf b | encInit | decVal | vupd => exact ite_safe (fun _ => trivial) fun _ => trivial
  | quant p | dequant p =>
    simp only [exec, execQuant, execDequant]
    split <;> exact trivial
  | nop | srst | prst | cdf b | freq b | v2b | b2v | scalebits | qmul c | qexp | predict | classify => exact trivial

/-! ## Every step -/

/-- A host read of BUF is inside it. -/
theorem hostRead_safe (s : State) (width addr : Nat) : Result.Safe (hostRead s width addr) := by
  unfold hostRead
  split
  next => exact trivial
  next => exact trivial
  next a ht => simp only [memRead_of_le (targetOf_eq_buf ht)]; exact trivial
  all_goals exact trivial

/-- A host write of BUF is inside it. -/
theorem hostWrite_safe (s : State) (width addr : Nat) (v : Word) : Result.Safe (hostWrite s width addr v) := by
  unfold hostWrite
  split
  next => exact trivial
  next => exact trivial
  next a ht =>
    obtain ⟨m, hm⟩ := memWrite_of_le v.toNat (targetOf_eq_buf ht)
    simp only [hm]
    exact trivial
  all_goals exact trivial

theorem engineMove_safe {s : State} (h : s.Inv) : Result.Safe (engineMove s) := by
  refine ite_safe (fun _ => ?_) fun _ => trivial
  unfold runLatched
  split
  · exact exec_safe _ h
  · exact trivial

/-- Settles O23: the host's accesses are inside BUF in every state, and the engine's by the invariant. -/
theorem stepNeverFaults : Obligations.StepNeverFaults := by
  intro s h
  cases hin : s.inputs with
  | nil => exact step_nil hin ▸ engineMove_safe h
  | cons i rest =>
    rw [step_cons hin]
    cases i with
    | read width addr => exact hostRead_safe _ width addr
    | write width addr v => exact hostWrite_safe _ width addr v
    | reset => exact trivial
    | engine => exact engineMove_safe (s := s.withInputs rest) h

end Machine
end Sys2Proof
end

section
/-! SUPPORT. The ROM's invariants (20_memory.md R96, R97, R108, R109), from the construction and the rise of the tables. -/

namespace Sys2Proof
namespace Machine

/-- Entry j of the construction of R96 is the listing's. -/
theorem romConstruction_getElem? (b : Bucket) {j : Nat} (h : j ≤ 256) : (romConstruction b)[j]? = some (rom b j) := by
  have hj : j < (romEntries b).length := by
    rw [romEntries_length]
    omega
  rw [← romEntries_eq_construction, List.getElem?_eq_getElem hj, romEntries_get]

/-- The frequency of the symbol j − 128 in table b (R202). -/
def romStep (b : Bucket) (j : Nat) : Nat := rom b (j + 1) - rom b j

/-- The frequencies of a table sum to what it rises by (R108). -/
theorem sum_romStep (b : Bucket) {n : Nat} (h : n ≤ 256) : ∑ j ∈ Finset.range n, romStep b j = rom b n := by
  induction n with
  | zero => exact (rom_first b).symm
  | succ n ih =>
    have := rom_lt_rom (b := b) (Nat.lt_add_one n) h
    rw [Finset.sum_range_succ, ih (by omega), romStep]
    omega

/-- Each table is symmetric about symbol 0 (R109). -/
theorem romStep_symmetric : ∀ b : Bucket, ∀ x < 128, romStep b (128 + x) = romStep b (128 - x) := by
  decide +kernel

/-- No symbol of a table is more frequent than symbol 0 (R109). -/
theorem romStep_le_peak : ∀ b : Bucket, ∀ j < 256, romStep b j ≤ romStep b 128 := by
  decide +kernel

/-- Table 0 gives every symbol but 0 frequency 1 (R109). -/
theorem romStep_zero : romStep 0 128 = 32513 ∧ ∀ j < 256, j ≠ 128 → romStep 0 j = 1 := by
  decide +kernel

/-- Settles O34: the tables are the construction's, rise from entry to entry, and have the frequencies of R109. -/
theorem romInvariants : Obligations.RomInvariants := by
  refine ⟨rfl, romSums_eq, fun b => ⟨fun j hj => romConstruction_getElem? b hj, rom_first b, rom_last b, fun j hj => ?_,
    (sum_romStep b (Nat.le_refl 256)).trans (rom_last b), fun x _ hx => romStep_symmetric b x (by omega), fun j hj =>
    romStep_le_peak b j (by omega), ?_⟩⟩
  · exact rom_lt_rom (Nat.lt_succ_self j) (by omega)
  · rintro rfl
    obtain ⟨hpeak, hothers⟩ := romStep_zero
    exact ⟨hpeak, fun j hj => hothers j (by omega)⟩

end Machine
end Sys2Proof
end

section
/-! SUPPORT. The two readings of the encoding, the decoder's fields (30_encoding.md R131) and the opcode map's rows of mask and
match (R132, R135), against the words that `encode` makes (R136). -/

namespace Sys2Proof
namespace Machine

/-! ## A word and its fields (R131) -/

/-- Keeping `n` bits of a word from bit `k` on is extracting them and putting them back. -/
theorem and_mask_eq_field (w : Word) (k n : Nat) :
    w &&& (BitVec.allOnes n).setWidth 32 <<< k = (w.extractLsb' k n).setWidth 32 <<< k := by
  ext i hi
  by_cases hk : i < k
  · simp [hk]
  · simp [hk, Nat.add_sub_cancel' (Nat.le_of_not_lt hk), BitVec.getLsbD_eq_getElem hi, Bool.and_comm]

/-- A field of one bit is that bit. -/
theorem extractLsb'_one (w : Word) (k : Nat) : w.extractLsb' k 1 = BitVec.ofBool (w.getLsbD k) := by
  ext i hi
  obtain rfl : i = 0 := by omega
  simp

@[simp] theorem bitOfProfile_profileOfBit (p : Bool) : bitOfProfile (profileOfBit p) = p := by
  cases p <;> rfl

theorem and_mask_opc (w : Word) : w &&& 0x000000FF#32 = (fieldOpc w).setWidth 32 :=
  (and_mask_eq_field w 0 8).trans (BitVec.shiftLeft_zero _)

theorem and_mask_bkt (w : Word) : w &&& 0x00000F00#32 = placeBkt (fieldBkt w) :=
  and_mask_eq_field w 8 4

theorem and_mask_prf (w : Word) : w &&& 0x00001000#32 = placePrf (profileOfBit (fieldPrf w)) := by
  rw [placePrf, bitOfProfile_profileOfBit, fieldPrf, ← extractLsb'_one]
  exact and_mask_eq_field w 12 1

theorem and_mask_cnj (w : Word) : w &&& 0x00002000#32 = placeCnj (fieldCnj w) := by
  rw [placeCnj, fieldCnj, ← extractLsb'_one]
  exact and_mask_eq_field w 13 1

theorem and_mask_rsv (w : Word) : w &&& 0xFFFFC000#32 = (fieldRsv w).setWidth 32 <<< 14 :=
  and_mask_eq_field w 14 18

/-- A word is what a mask keeps of it and what the mask drops. -/
theorem eq_and_or_and_not (w m : Word) : w = w &&& m ||| w &&& ~~~m := by
  rw [← BitVec.and_or_distrib_left, BitVec.or_not_self, BitVec.and_allOnes]

/-- The fields cover the word: one whose RSV is 0 is its other four, each in its place. -/
theorem eq_fields_of_rsv {w : Word} (h : fieldRsv w = 0) :
    w = (fieldOpc w).setWidth 32 ||| placeBkt (fieldBkt w) ||| placePrf (profileOfBit (fieldPrf w)) |||
      placeCnj (fieldCnj w) := by
  have hcover : w = w &&& (0x000000FF#32 ||| 0x00000F00#32 ||| 0x00001000#32 ||| 0x00002000#32 ||| 0xFFFFC000#32) :=
    BitVec.and_allOnes.symm
  simp only [BitVec.and_or_distrib_left, and_mask_opc, and_mask_bkt, and_mask_prf, and_mask_cnj, and_mask_rsv, h] at hcover
  simpa using hcover

/-! ## What each form of the decoder reads (R132) -/

@[simp] theorem placeBkt_zero : placeBkt 0#4 = 0#32 := rfl
@[simp] theorem placePrf_false : placePrf (profileOfBit false) = 0#32 := rfl
@[simp] theorem placeCnj_false : placeCnj false = 0#32 := rfl

/-- A check in front of an answer passes. -/
theorem ite_error_eq_ok {ε α : Type} {c : Prop} [Decidable c] {x : Except ε α} {e : ε} {a : α} :
    (if c then x else .error e) = .ok a ↔ c ∧ x = .ok a := by
  split <;> simp [*]

theorem decodePlain_eq_ok {w : Word} {j i : Instr} :
    decodePlain w j = .ok i ↔ (fieldBkt w = 0 ∧ fieldPrf w = false ∧ fieldCnj w = false) ∧ j = i := by
  simp [decodePlain, ite_error_eq_ok]

theorem decodeBkt_eq_ok {w : Word} {f : Bucket → Instr} {i : Instr} :
    decodeBkt w f = .ok i ↔ (fieldPrf w = false ∧ fieldCnj w = false) ∧ f (fieldBkt w) = i := by
  simp [decodeBkt, ite_error_eq_ok]

theorem decodePrf_eq_ok {w : Word} {f : Profile → Instr} {i : Instr} :
    decodePrf w f = .ok i ↔ (fieldBkt w = 0 ∧ fieldCnj w = false) ∧ f (profileOfBit (fieldPrf w)) = i := by
  simp [decodePrf, ite_error_eq_ok]

theorem decodeCnj_eq_ok {w : Word} {f : Bool → Instr} {i : Instr} :
    decodeCnj w f = .ok i ↔ (fieldBkt w = 0 ∧ fieldPrf w = false) ∧ f (fieldCnj w) = i := by
  simp [decodeCnj, ite_error_eq_ok]

/-! ## A word that a form accepts is the word of R136 -/

section
variable {w : Word} {i : Instr} {n : Nat} (hrsv : fieldRsv w = 0) (hopc : (fieldOpc w).toNat = n)
include hrsv hopc

/-- OPC with the other fields of a word whose RSV is 0. -/
theorem eq_opc_or_fields :
    BitVec.ofNat 32 n ||| placeBkt (fieldBkt w) ||| placePrf (profileOfBit (fieldPrf w)) ||| placeCnj (fieldCnj w) = w := by
  rw [← hopc, BitVec.ofNat_toNat]
  exact (eq_fields_of_rsv hrsv).symm

theorem encode_of_decodePlain {j : Instr} (h : decodePlain w j = .ok i) (henc : encode j = BitVec.ofNat 32 n) :
    encode i = w := by
  obtain ⟨⟨hbkt, hprf, hcnj⟩, rfl⟩ := decodePlain_eq_ok.1 h
  simpa [henc, hbkt, hprf, hcnj] using eq_opc_or_fields hrsv hopc

theorem encode_of_decodeBkt {f : Bucket → Instr} (h : decodeBkt w f = .ok i)
    (henc : ∀ b, encode (f b) = BitVec.ofNat 32 n ||| placeBkt b) : encode i = w := by
  obtain ⟨⟨hprf, hcnj⟩, rfl⟩ := decodeBkt_eq_ok.1 h
  simpa [henc, hprf, hcnj] using eq_opc_or_fields hrsv hopc

theorem encode_of_decodePrf {f : Profile → Instr} (h : decodePrf w f = .ok i)
    (henc : ∀ p, encode (f p) = BitVec.ofNat 32 n ||| placePrf p) : encode i = w := by
  obtain ⟨⟨hbkt, hcnj⟩, rfl⟩ := decodePrf_eq_ok.1 h
  simpa [henc, hbkt, hcnj] using eq_opc_or_fields hrsv hopc

theorem encode_of_decodeCnj {f : Bool → Instr} (h : decodeCnj w f = .ok i)
    (henc : ∀ c, encode (f c) = BitVec.ofNat 32 n ||| placeCnj c) : encode i = w := by
  obtain ⟨⟨hbkt, hprf⟩, rfl⟩ := decodeCnj_eq_ok.1 h
  simpa [henc, hbkt, hprf] using eq_opc_or_fields hrsv hopc

end

theorem decode_eq_ok {w : Word} {i : Instr} : decode w = .ok i ↔ fieldRsv w = 0 ∧ decodeOpc w = .ok i :=
  ite_error_eq_ok

/-- A legal word is the word of the command it decodes to: under each OPC the decoder's form is that of the command's word (R135,
R136). -/
theorem encode_of_decode {w : Word} {i : Instr} (h : decode w = .ok i) : encode i = w := by
  obtain ⟨hrsv, h⟩ := decode_eq_ok.1 h
  unfold decodeOpc at h
  split at h
  -- CDF, FREQ, ICDF, ENC_SYMB and DEC_SYMB
  case h_4 | h_5 | h_6 | h_14 | h_19 => exact encode_of_decodeBkt hrsv ‹_› h fun _ => rfl
  -- QUANT, DEQUANT and COMPRESS
  case h_21 | h_22 | h_25 => exact encode_of_decodePrf hrsv ‹_› h fun _ => rfl
  -- QMUL
  case h_10 => exact encode_of_decodeCnj hrsv ‹_› h fun _ => rfl
  -- an OPC outside the opcode map (R137)
  case h_27 => cases h
  all_goals exact encode_of_decodePlain hrsv ‹_› h rfl

/-! ## The opcode map's rows (R132, R135) -/

/-- The word of every command matches a row of the opcode map. -/
theorem wellFormedWord_encode : ∀ i : Instr, wellFormedWord (encode i) = true
  | .nop => Laws.EncodeLegal.nop
  | .srst => Laws.EncodeLegal.srst
  | .prst => Laws.EncodeLegal.prst
  | .cdf b => Laws.EncodeLegal.cdf b
  | .freq b => Laws.EncodeLegal.freq b
  | .icdf b => Laws.EncodeLegal.icdf b
  | .v2b => Laws.EncodeLegal.v2b
  | .b2v => Laws.EncodeLegal.b2v
  | .scalebits => Laws.EncodeLegal.scalebits
  | .qmul cnj => Laws.EncodeLegal.qmul cnj
  | .qexp => Laws.EncodeLegal.qexp
  | .encInit => Laws.EncodeLegal.encInit
  | .encSym => Laws.EncodeLegal.encSym
  | .encSymb b => Laws.EncodeLegal.encSymb b
  | .encFlush => Laws.EncodeLegal.encFlush
  | .decInit => Laws.EncodeLegal.decInit
  | .decVal => Laws.EncodeLegal.decVal
  | .decConsume => Laws.EncodeLegal.decConsume
  | .decSymb b => Laws.EncodeLegal.decSymb b
  | .predict => Laws.EncodeLegal.predict
  | .quant p => Laws.EncodeLegal.quant p
  | .dequant p => Laws.EncodeLegal.dequant p
  | .classify => Laws.EncodeLegal.classify
  | .vupd => Laws.EncodeLegal.vupd
  | .compress p => Laws.EncodeLegal.compress p
  | .decompress => Laws.EncodeLegal.decompress

theorem wellFormedWord_iff {w : Word} : wellFormedWord w = true ↔ ∃ r ∈ opcodeRows, w &&& r.mask = r.pattern := by
  simp [wellFormedWord, OpcodeRow.accepts]

/-- The mask of each row drops the one field, or none, that the decoder reads under the row's OPC: with that field at any value
the row's match is a legal word. -/
theorem row_match_decodes : ∀ r ∈ opcodeRows,
    (r.mask = ~~~0x00000000#32 ∧ (decode r.pattern).isOk) ∨
      (r.mask = ~~~0x00000F00#32 ∧ ∀ b, (decode (r.pattern ||| placeBkt b)).isOk) ∨
      (r.mask = ~~~0x00001000#32 ∧ ∀ p, (decode (r.pattern ||| placePrf (profileOfBit p))).isOk) ∨
      (r.mask = ~~~0x00002000#32 ∧ ∀ c, (decode (r.pattern ||| placeCnj c)).isOk) := by
  decide

/-- A word that a row matches is legal: it is the row's match with the dropped field in its place. -/
theorem decode_isOk_of_row {w : Word} {r : OpcodeRow} (hr : r ∈ opcodeRows) (h : w &&& r.mask = r.pattern) :
    (decode w).isOk := by
  have hw := eq_and_or_and_not w r.mask
  rw [h] at hw
  rcases row_match_decodes r hr with ⟨hm, hd⟩ | ⟨hm, hd⟩ | ⟨hm, hd⟩ | ⟨hm, hd⟩ <;>
    rw [hm, BitVec.not_not] at hw
  · rwa [hw, BitVec.and_zero, BitVec.or_zero]
  · rw [hw, and_mask_bkt]
    exact hd _
  · rw [hw, and_mask_prf]
    exact hd _
  · rw [hw, and_mask_cnj]
    exact hd _

/-- R132's validity is the decoder's. -/
theorem decodes_iff_row {w : Word} : (∃ i, decode w = .ok i) ↔ ∃ r ∈ opcodeRows, w &&& r.mask = r.pattern := by
  constructor
  · rintro ⟨i, h⟩
    rw [← wellFormedWord_iff, ← encode_of_decode h]
    exact wellFormedWord_encode i
  · rintro ⟨r, hr, h⟩
    have := decode_isOk_of_row hr h
    cases hd : decode w with
    | ok i => exact ⟨i, rfl⟩
    | error e => simp [hd, Except.isOk, Except.toBool] at this

/-- Settles O1: the decoder reads every command's word back. -/
theorem decodeOfEncode : Obligations.DecodeOfEncode := decode_word

/-- Settles O2: the form under each OPC is that of the command's word. -/
theorem encodeOfDecode : Obligations.EncodeOfDecode := fun _ _ => encode_of_decode

/-- Settles O3: a word that no row matches decodes to an error, which the engine's move reports. -/
theorem legalWordsAreTheRows : Obligations.LegalWordsAreTheRows := by
  refine fun w => ⟨decodes_iff_row, fun hrow s hb hlatch => ?_⟩
  rw [← decodes_iff_row, ← hlatch] at hrow
  cases hd : decode s.latch with
  | ok i => exact absurd ⟨i, hd⟩ hrow
  | error e =>
    rw [engineMove_busy hb, runLatched_error hd]
    rfl

/-- Settles O4: each worked word is the word of its command, read back. -/
theorem decodedWords : Obligations.DecodedWords :=
  ⟨decode_word (.cdf 3), decode_word (.icdf 15), decode_word (.compress .prof1), decode_word (.compress .prof0),
    decode_word (.qmul true), decode_word (.encSymb 6), decode_word .decompress, decode_word .nop, decode_word .vupd,
    decode_word (.dequant .prof1)⟩

end Machine
end Sys2Proof
end

section
/-! SUPPORT. The control commands: each is a success completion (R403), of the state itself, of the soft reset (R172) or of the
stream-start predictor (R176). -/

namespace Sys2Proof
namespace Machine

theorem exec_nop_eq (s : State) : exec .nop s = .next s.complete := rfl

theorem exec_srst_eq (s : State) : exec .srst s = .next s.softReset.complete := exec_srst.2 rfl

theorem exec_prst_eq (s : State) : exec .prst s = .next (s.withPred Predictor.start).complete := rfl

/-- NOP rewrites RESULT with itself: a completion is `doneWith` the RESULT that stands (R171). -/
theorem complete_eq_doneWith_result (s : State) : s.complete = s.doneWith s.result := rfl

/-- Settles O33: the reset values of R450 and R176 are those that `softReset` and `Predictor.start` write, and completion adds
DONE alone. -/
theorem controlCommands : Obligations.ControlCommands := by
  refine ⟨fun s => ?nop, fun s => ?srst, fun s => ?prst⟩
  case nop => rw [exec_nop_eq, complete_eq_doneWith_result]
  case srst =>
    rw [exec_srst_eq]
    rfl
  case prst =>
    rw [exec_prst_eq]
    rfl

end Machine
end Sys2Proof
end

section
/-! SUPPORT. The variance model's functions: `cdf_fn`, `freq_fn` and `icdf_fn` over a rising table, the buckets as base-2 logarithms
(41_variance_model.md section 1), and the state in which each of its commands completes (section 2). -/

namespace Sys2Proof
namespace Machine

/-! ## How the commands complete (R210 to R215) -/

theorem toWord_natCast (n : Nat) : toWord n = BitVec.ofNat 32 n := BitVec.ofInt_natCast ..

theorem exec_cdf_eq (b : Bucket) (s : State) :
    exec (.cdf b) s = .next (s.doneWith { s.result with c0 := BitVec.ofNat 32 (cdfFn (s32 s.argLo.c0) b) }) := by
  rw [← toWord_natCast]
  rfl

theorem exec_freq_eq (b : Bucket) (s : State) :
    exec (.freq b) s = .next (s.doneWith { s.result with c0 := BitVec.ofNat 32 (freqFn (s32 s.argLo.c0) b) }) := by
  rw [← toWord_natCast]
  rfl

theorem exec_icdf_of_lt (b : Bucket) {s : State} (h : u32 s.argLo.c0 < Config.total) :
    exec (.icdf b) s = .next (s.doneWith
      { s.result with
        c0 := toWord (icdfFn (u32 s.argLo.c0) b)
        c1 := BitVec.ofNat 32 (cdfFn (icdfFn (u32 s.argLo.c0) b) b)
        c2 := BitVec.ofNat 32 (freqFn (icdfFn (u32 s.argLo.c0) b) b) }) := by
  rw [← toWord_natCast, ← toWord_natCast]
  exact if_neg (Nat.not_le.2 h)

theorem exec_icdf_of_le (b : Bucket) {s : State} (h : Config.total ≤ u32 s.argLo.c0) :
    exec (.icdf b) s = .next (s.failedWith .badArgument na na) := if_pos h

theorem exec_v2b_eq (s : State) :
    exec .v2b s = .next (s.doneWith { s.result with c0 := BitVec.ofNat 32 (v2bFn (u32 s.argLo.c0)).toNat }) := by
  rw [← toWord_natCast]
  rfl

theorem exec_b2v_eq (s : State) :
    exec .b2v s = .next (s.doneWith { s.result with c0 := BitVec.ofNat 32 (b2vFn (s32 s.argLo.c0)) }) := by
  rw [← toWord_natCast]
  rfl

theorem exec_scalebits_eq (s : State) : exec .scalebits s = .next (s.doneWith { s.result with c0 := 15#32 }) := rfl

/-! ## CDF and FREQ (R201, R202) -/

theorem cdfFn_of_le {x : Int} (b : Bucket) (h : x ≤ -128) : cdfFn x b = 0 := if_pos h

/-- From 128 on the interval's end is the whole scale: inside the table because `ROM(b, 256) = 32768` (R108). -/
theorem cdfFn_of_ge {x : Int} (b : Bucket) (h : 128 ≤ x) : cdfFn x b = Config.total := by
  obtain rfl | hgt := h.eq_or_lt
  · exact (cdfFn_of_mem b (by decide) le_rfl).trans (rom_last b)
  · unfold cdfFn
    rw [if_neg (by omega), if_neg (by omega)]

theorem freqFn_of_symbol {x : Int} (b : Bucket) (h1 : -128 ≤ x) (h2 : x ≤ 127) :
    freqFn x b = rom b (x + 129).toNat - rom b (x + 128).toNat := by
  unfold freqFn
  rw [cdfFn_of_mem b h1 (by omega), cdfFn_of_mem b (by omega) (by omega), show x + 1 + 128 = x + 129 by ring]

/-- `cdf_fn` is constant on either side of the Symbols. -/
theorem cdfFn_succ_of_not_symbol {x : Int} (b : Bucket) (h : x < -128 ∨ 127 < x) : cdfFn (x + 1) b = cdfFn x b := by
  rcases h with hlow | hhigh
  · rw [cdfFn_of_le b (by omega), cdfFn_of_le b (by omega)]
  · rw [cdfFn_of_ge b (by omega), cdfFn_of_ge b (by omega)]

theorem freqFn_of_not_symbol {x : Int} (b : Bucket) (h : x < -128 ∨ 127 < x) : freqFn x b = 0 := by
  rw [freqFn, cdfFn_succ_of_not_symbol b h, Nat.sub_self]

theorem one_le_freqFn_iff {x : Int} {b : Bucket} : 1 ≤ freqFn x b ↔ -128 ≤ x ∧ x ≤ 127 := by
  refine ⟨fun h => ?_, fun h => one_le_freqFn b (isSymbol_iff.2 h)⟩
  by_contra hx
  rw [freqFn_of_not_symbol b (by omega)] at h
  omega

theorem cdfFn_le_succ (x : Int) (b : Bucket) : cdfFn x b ≤ cdfFn (x + 1) b := by
  by_cases hx : -128 ≤ x ∧ x ≤ 127
  · have hfreq := one_le_freqFn_iff (b := b).2 hx
    unfold freqFn at hfreq
    omega
  · exact (cdfFn_succ_of_not_symbol b (by omega)).ge

/-- The difference in `freq_fn` never truncates (R202). -/
theorem freqFn_eq_sub (x : Int) (b : Bucket) : (freqFn x b : Int) = (cdfFn (x + 1) b : Int) - (cdfFn x b : Int) :=
  Nat.cast_sub (cdfFn_le_succ x b)

/-- Settles O35: CDF and FREQ return `cdf_fn` and `freq_fn`, which are constant outside the Symbols and rise with the ROM on them. -/
theorem cdfAndFreqResults : Obligations.CdfAndFreqResults := by
  intro s b x
  rw [exec_cdf_eq, exec_freq_eq]
  refine ⟨fun h => ?below, fun h1 h2 => ?inside, fun h => ?above, fun h1 h2 => ⟨?rises, ?symbol⟩, fun h => ?noSymbol,
    fun z => ⟨freqFn_eq_sub z b, one_le_freqFn_iff⟩⟩
  case below => rw [cdfFn_of_le b h]
  case inside => rw [cdfFn_of_mem b h1.le h2]
  case above =>
    rw [cdfFn_of_ge b h.le]
    rfl
  case rises => exact rom_lt_rom (by omega) (by omega)
  case symbol => rw [freqFn_of_symbol b h1 h2]
  case noSymbol => rw [freqFn_of_not_symbol b h]

/-! ## ICDF (R203) -/

/-- `icdf_fn(y, b)` is the last x with `cdf_fn(x, b) <= y`. -/
theorem cdfFn_le_iff_le_icdfFn {y : Nat} (b : Bucket) (h : y < Config.total) (z : Int) : cdfFn z b ≤ y ↔ z ≤ icdfFn y b := by
  obtain ⟨hlow, hhigh⟩ := isSymbol_iff.1 (isSymbol_icdfFn b h)
  rcases lt_or_ge z (-128) with hz | hz
  · rw [cdfFn_of_le b hz.le]
    omega
  rcases lt_or_ge 128 z with hz' | hz'
  · rw [cdfFn_of_ge b hz'.le]
    omega
  · have hj : (z + 128).toNat < (romEntries b).length := by
      rw [romEntries_length]
      omega
    have hcount := (countUpTo_spec (romEntries_rising b) y).2 _ hj
    rw [cdfFn_of_mem b hz hz', ← romEntries_get b hj, ← hcount, icdfFn]
    omega

/-- `y < cdf_fn(z + 1, b)` says that z + 1 is past the last x with `cdf_fn(x, b) <= y`. -/
theorem lt_cdfFn_succ_iff {y : Nat} (b : Bucket) (h : y < Config.total) (z : Int) : y < cdfFn (z + 1) b ↔ icdfFn y b ≤ z := by
  rw [← Nat.not_le, cdfFn_le_iff_le_icdfFn b h]
  omega

/-- Settles O36: an interval holds y exactly when its symbol is neither above nor below `icdf_fn(y, b)`. -/
theorem icdfResult : Obligations.IcdfResult := by
  intro s b y
  refine ⟨fun hy => ?_, exec_icdf_of_le b⟩
  obtain ⟨hlow, hhigh⟩ := isSymbol_iff.1 (isSymbol_icdfFn b hy)
  have hbelow (z : Int) := cdfFn_le_iff_le_icdfFn b hy z
  have habove (z : Int) := lt_cdfFn_succ_iff b hy z
  exact ⟨icdfFn y b, hlow, hhigh, (hbelow _).2 le_rfl, (habove _).2 le_rfl,
    fun z hz1 hz2 => le_antisymm ((hbelow z).1 hz1) ((habove z).1 hz2), rfl, exec_icdf_of_lt b hy⟩

/-! ## The buckets (R204, R206) -/

theorem msb_eq {v k : Nat} (h1 : 2 ^ k ≤ v) (h2 : v < 2 ^ (k + 1)) : msb v = k :=
  (Nat.log2_eq_iff ((Nat.two_pow_pos k).trans_le h1).ne').2 ⟨h1, h2⟩

theorem msb_mono {v w : Nat} (h : v ≤ w) : msb v ≤ msb w := by
  unfold msb
  rw [Nat.log2_eq_log_two, Nat.log2_eq_log_two]
  exact Nat.log_mono_right h

/-- The bucket is `min(15, msb(v) - 10)` below 2^11 too, where the difference in ℕ is 0. -/
theorem v2bFn_toNat (v : Nat) : (v2bFn v).toNat = min 15 (msb v - 10) := by
  unfold v2bFn
  split
  case isTrue h =>
    have hmsb : msb v ≤ msb (2 ^ 11 - 1) := msb_mono (by omega)
    have htop : msb (2 ^ 11 - 1) = 10 := msb_eq (by decide) (by decide)
    rw [BitVec.toNat_ofNat]
    omega
  case isFalse =>
    rw [BitVec.toNat_ofNat]
    omega

theorem v2bFn_of_lt {v : Nat} (h : v < 2 ^ 11) : v2bFn v = 0 := if_pos h

theorem b2vFn_of_neg {i : Int} (h : i < 0) : b2vFn i = 2 ^ 10 := by
  rw [b2vFn, clamp, show (min (max i 0) 15).toNat = 0 by omega]

theorem b2vFn_natCast (i : Nat) : b2vFn i = 2 ^ (min i 15 + 10) := by
  rw [b2vFn, clamp, show (min (max (i : Int) 0) 15).toNat = min i 15 by omega]

/-- Settles O37: each command returns its function's value, V2B by the power-of-two interval of its operand. -/
theorem bucketResults : Obligations.BucketResults := by
  intro s
  rw [exec_v2b_eq, exec_b2v_eq]
  refine ⟨fun h => ?small, fun k _ h1 h2 => ?interval, fun h => ?negative, fun i h => ?natural, exec_scalebits_eq s⟩
  case small =>
    rw [v2bFn_of_lt h]
    rfl
  case interval => rw [v2bFn_toNat, msb_eq h1 h2]
  case negative =>
    rw [b2vFn_of_neg h]
    rfl
  case natural => rw [h, b2vFn_natCast]

theorem v2bFn_b2vFn {i : Nat} (h : i ≤ 15) : (v2bFn (b2vFn i)).toNat = i := by
  rw [b2vFn_natCast, v2bFn_toNat, msb, Nat.log2_two_pow]
  omega

/-- Settles O38: the bucket is monotone in the most significant bit, and `b2v_fn(i)` has its most significant bit at i + 10. -/
theorem bucketProperties : Obligations.BucketProperties := by
  refine ⟨fun v w h => ?monotone, v2bFn_of_lt (by decide), v2bFn_of_lt (by decide), ?last, fun i h => ?roundTrip⟩
  case monotone =>
    have hmsb := msb_mono h
    rw [v2bFn_toNat, v2bFn_toNat]
    omega
  case last =>
    refine BitVec.eq_of_toNat_eq ?_
    rw [v2bFn_toNat, msb_eq (k := 26) (by decide) (by decide)]
    rfl
  case roundTrip => exact ⟨v2bFn_b2vFn h, by rw [v2bFn_b2vFn h]⟩

end Machine
end Sys2Proof
end

section
/-! SUPPORT. The quaternion commands: the RESULT registers hold exactly what `sat32` and `v2b_fn` return, and the sums of products
that QMUL and QEXP round are small enough for the accumulators of 42_quaternion.md R242 and R244. -/

namespace Sys2Proof
namespace Machine

/-! ## How the commands complete (R241, R243, R330, R333) -/

/-- A command that writes RESULT and completes (R403). -/
theorem succeed_withResult (s : State) (r : Quad Word) : succeed (s.withResult r) = .next (s.doneWith r) := rfl

theorem exec_qmul_eq (cnj : Bool) (s : State) :
    exec (.qmul cnj) s = .next (s.doneWith (wordsOf (qmulFn (quatOf s.argLo) (quatOf s.argHi) cnj))) :=
  succeed_withResult s _

theorem exec_qexp_eq (s : State) :
    exec .qexp s = .next (s.doneWith (wordsOf (qexpFn (s32 s.argLo.c0) (s32 s.argLo.c1) (s32 s.argLo.c2)))) :=
  succeed_withResult s _

theorem exec_predict_eq (s : State) :
    exec .predict s = .next (s.doneWith (wordsOf (predictFn (quatOf s.pred.p1) (quatOf s.pred.p2)))) :=
  succeed_withResult s _

theorem exec_classify_eq (s : State) :
    exec .classify s = .next (s.doneWith (s.pred.var.map fun v => toWord (classifyFn v).toNat)) :=
  succeed_withResult s _

theorem result_eq_of_doneWith {s t : State} {r : Quad Word} (h : (.next (s.doneWith r) : Result) = .next t) : t.result = r := by
  cases h
  rfl

/-! ## Saturated values in registers (R13, R14) -/

@[simp] theorem quad_get_map {α β : Type} (f : α → β) (q : Quad α) (c : Fin 4) : (q.map f).get c = f (q.get c) := by
  fin_cases c <;> rfl

theorem s32_toWord {v : Int} (h0 : -2 ^ 31 ≤ v) (h1 : v < 2 ^ 31) : s32 (toWord v) = v := by
  simp only [s32, toWord]
  exact BitVec.toInt_ofInt_eq_self (by decide) h0 h1

theorem s32_bounds (w : Word) : -2 ^ 31 ≤ s32 w ∧ s32 w ≤ 2 ^ 31 - 1 :=
  ⟨BitVec.le_toInt w, Int.le_sub_one_of_lt BitVec.toInt_lt⟩

theorem abs_s32_le (w : Word) : |s32 w| ≤ 2 ^ 31 := by
  obtain ⟨hlow, hhigh⟩ := s32_bounds w
  exact abs_le.2 ⟨hlow, by omega⟩

theorem sat32_eq (v : Int) : sat32 v = min (max v (-2 ^ 31)) (2 ^ 31 - 1) := rfl

theorem sat32_of_mem {v : Int} (h0 : -2 ^ 31 ≤ v) (h1 : v ≤ 2 ^ 31 - 1) : sat32 v = v := by
  rw [sat32_eq, max_eq_left h0, min_eq_left h1]

theorem s32_toWord_sat32 (v : Int) : s32 (toWord (sat32 v)) = sat32 v := by
  rw [sat32_eq]
  exact s32_toWord (by omega) (by omega)

/-! ## QMUL (R242) -/

/-- The factor b' of R242, with the sign of its vector part as CNJ gives it. -/
theorem conjugate_if_eq (b : Quad Int) (cnj : Bool) :
    (if cnj then conjugate b else b) =
      ⟨b.c0, (if cnj then -1 else 1) * b.c1, (if cnj then -1 else 1) * b.c2, (if cnj then -1 else 1) * b.c3⟩ := by
  cases cnj <;> simp [conjugate]

theorem abs_conjugate_if_get (b : Quad Int) (cnj : Bool) (c : Fin 4) :
    |(if cnj then conjugate b else b).get c| = |b.get c| := by
  cases cnj
  case false => rfl
  case true => fin_cases c <;> simp [conjugate, Quad.get]

/-- Component c of the product is a signed sum of the four products of components i and i xor c. -/
theorem abs_hamilton_le {a b : Quad Int} (ha : ∀ c, |a.get c| ≤ 2 ^ 31) (hb : ∀ c, |b.get c| ≤ 2 ^ 31) (c : Fin 4) :
    |(hamilton a b).get c| ≤ 2 ^ 64 := by
  have hprod (i : Fin 4) : -2 ^ 62 ≤ a.get i * b.get (i ^^^ c) ∧ a.get i * b.get (i ^^^ c) ≤ 2 ^ 62 := by
    rw [← abs_le, abs_mul]
    exact mul_le_mul (ha i) (hb _) (abs_nonneg _) (by decide)
  have h0 := hprod 0
  have h1 := hprod 1
  have h2 := hprod 2
  have h3 := hprod 3
  rw [abs_le]
  fin_cases c <;> simp only [hamilton, Quad.get, Fin.reduceFinMk, Fin.reduceXor, Fin.zero_eta, Fin.mk_one] at h0 h1 h2 h3 ⊢ <;> omega

theorem abs_quatOf_get_le (q : Quad Word) (c : Fin 4) : |(quatOf q).get c| ≤ 2 ^ 31 := by
  rw [quatOf, quad_get_map]
  exact abs_s32_le _

theorem s32_wordsOf_qmulFn_get (a b : Quad Int) (cnj : Bool) (c : Fin 4) :
    s32 ((wordsOf (qmulFn a b cnj)).get c) =
      sat32 (((hamilton a (if cnj then conjugate b else b)).get c + 2 ^ 29) / 2 ^ 30) := by
  rw [wordsOf, qmulFn, quad_get_map, quad_get_map, roundQ60, s32_toWord_sat32, asr]

/-- Settles O39: the accumulators are within ±2^64, and a register holds the saturated quotient exactly. -/
theorem qmulResult : Obligations.QmulResult := by
  intro s cnj a sign b acc
  have hacc : acc = hamilton (quatOf s.argLo) (if cnj then conjugate (quatOf s.argHi) else quatOf s.argHi) := by
    rw [conjugate_if_eq]
    rfl
  refine ⟨_, exec_qmul_eq cnj s, fun c => ?_⟩
  have hbound : |acc.get c| ≤ 2 ^ 64 := by
    rw [hacc]
    refine abs_hamilton_le (abs_quatOf_get_le _) (fun d => ?_) c
    rw [abs_conjugate_if_get]
    exact abs_quatOf_get_le _ d
  obtain ⟨hlow, hhigh⟩ := abs_le.1 hbound
  exact ⟨by omega, by omega, by rw [s32_wordsOf_qmulFn_get, ← hacc, sat32_eq]⟩

/-! ## QEXP (R244) -/

theorem half_s32_bounds (w : Word) : -2 ^ 30 ≤ s32 w / 2 ∧ s32 w / 2 ≤ 2 ^ 30 - 1 := by
  have := s32_bounds w
  omega

/-- A floor half fits a register. -/
theorem s32_toWord_half (w : Word) : s32 (toWord (s32 w / 2)) = s32 w / 2 := by
  have := half_s32_bounds w
  exact s32_toWord (by omega) (by omega)

theorem half_s32_sq_le (w : Word) : (s32 w / 2) ^ 2 ≤ 2 ^ 60 := by
  obtain ⟨hlow, hhigh⟩ := half_s32_bounds w
  calc (s32 w / 2) ^ 2 ≤ (2 ^ 30) ^ 2 := sq_le_sq' hlow (by omega)
    _ = 2 ^ 60 := by norm_num

/-- The w of R244 for a sum of squares in its range. -/
theorem qexp_w_bounds {n : Int} (h0 : 0 ≤ n) (h1 : n ≤ 3 * 2 ^ 60) :
    -2 ^ 29 ≤ 2 ^ 30 - (n + 2 ^ 30) / 2 ^ 31 ∧ 2 ^ 30 - (n + 2 ^ 30) / 2 ^ 31 ≤ 2 ^ 30 := by
  omega

/-- Settles O40: each square is at most 2^60, so w is inside s32, where `sat32` and a register keep it. -/
theorem qexpResult : Obligations.QexpResult := by
  intro s h w
  have hsum : h.c1 ^ 2 + h.c2 ^ 2 + h.c3 ^ 2 ≤ 3 * 2 ^ 60 := by
    linarith [half_s32_sq_le s.argLo.c0, half_s32_sq_le s.argLo.c1, half_s32_sq_le s.argLo.c2]
  obtain ⟨hlow, hhigh⟩ : -2 ^ 29 ≤ w ∧ w ≤ 2 ^ 30 := qexp_w_bounds (by positivity) hsum
  refine ⟨fun c => ?halves, hsum, hlow, _, exec_qexp_eq s, ?w, s32_toWord_half _, s32_toWord_half _, s32_toWord_half _⟩
  case halves =>
    fin_cases c
    · exact (by decide : -2 ^ 30 ≤ (0 : Int) ∧ (0 : Int) ≤ 2 ^ 30 - 1)
    · exact half_s32_bounds s.argLo.c0
    · exact half_s32_bounds s.argLo.c1
    · exact half_s32_bounds s.argLo.c2
  case w => exact (s32_toWord_sat32 w).trans (sat32_of_mem (by omega) (by omega))

/-! ## PREDICT and CLASSIFY (R320, R326) -/

/-- The first product passes through the RESULT registers and back unchanged. -/
theorem quatOf_wordsOf_qmulFn (a b : Quad Int) (cnj : Bool) : quatOf (wordsOf (qmulFn a b cnj)) = qmulFn a b cnj := by
  simp only [quatOf, wordsOf, qmulFn, Quad.map, roundQ60, s32_toWord_sat32]

/-- Settles O41: PREDICT's inner product is what the first QMUL leaves in RESULT, and a bucket is V2B's by definition. -/
theorem predictAndClassifyResults : Obligations.PredictAndClassifyResults := by
  refine ⟨fun s => ⟨_, exec_predict_eq s, ?predict⟩, fun s => ⟨_, exec_classify_eq s, ?classify⟩⟩
  case predict =>
    intro u v t1 t2 hu1 hu2 h1 hv1 hv2 h2
    rw [exec_qmul_eq] at h1 h2
    rw [result_eq_of_doneWith h2, hv1, hv2, result_eq_of_doneWith h1, hu1, hu2, quatOf_wordsOf_qmulFn, predictFn]
  case classify =>
    intro c u t hu h
    rw [exec_v2b_eq] at h
    rw [result_eq_of_doneWith h, quad_get_map, toWord_natCast, hu, classifyFn]

end Machine
end Sys2Proof
end

section
/-! SUPPORT. The range coder's commands as equations: what each does when its checks pass, and the error of each check that does
not (43_range_coder.md R270, R271, R277 to R281, R293 to R297). -/

namespace Sys2Proof
namespace Machine

/-! ## Words -/

theorem ofNat_u32 (x : Word) : BitVec.ofNat 32 (u32 x) = x := BitVec.eq_of_toNat_eq (by simp [u32])

theorem ofNat_u32_add (x y : Word) : BitVec.ofNat 32 (u32 x + u32 y) = x + y := by
  rw [BitVec.ofNat_add, ofNat_u32, ofNat_u32]

theorem u32_sub {x y : Word} (h : u32 y ≤ u32 x) : u32 (x - y) = u32 x - u32 y := BitVec.toNat_sub_of_le h

/-! ## The encoder's commands -/

theorem exec_encInit_of_le {s : State} (h : s.argU 0 + s.argU 1 ≤ s.buf.size) :
    exec .encInit s = .next (s.withEnc (encoderStart (s.argU 0) (s.argU 0 + s.argU 1))).complete := if_pos (decide_eq_true h)

theorem exec_encInit_of_lt {s : State} (h : s.buf.size < s.argU 0 + s.argU 1) :
    exec .encInit s = .next (s.failedWith .badArgument na na) :=
  if_neg fun hc => Nat.not_le.2 h (of_decide_eq_true hc)

/-- The command i, run from s, encodes the interval of length fr from cum (R278, R279). -/
def State.encodes (s : State) (i : Instr) (cum fr : Nat) : Prop :=
  (i = .encSym ∧ cum = u32 s.argLo.c0 ∧ fr = u32 s.argLo.c1) ∨
    ∃ b, i = .encSymb b ∧ cum = cdfFn (s32 s.argLo.c0) b ∧ fr = freqFn (s32 s.argLo.c0) b

theorem needsEncoder_of_encodes {s : State} {i : Instr} {cum fr : Nat} (h : s.encodes i cum fr) : needsEncoder i = true := by
  obtain ⟨rfl, -⟩ | ⟨b, rfl, -⟩ := h <;> rfl

theorem exec_encode_of_legal {s : State} {i : Instr} {cum fr : Nat} (hi : s.encodes i cum fr) (ha : s.enc.state = .active)
    (hf : 1 ≤ fr) (hc : cum + fr ≤ Config.total) :
    exec i s = outcomeOf s.withEncPort s.withEncPort (encodeFn .na cum fr s.encPort) := by
  have hready := not_not.2 ha
  obtain ⟨rfl, rfl, rfl⟩ | ⟨b, rfl, rfl, rfl⟩ := hi
  · exact (if_neg hready).trans (if_neg (not_or.2 ⟨Nat.not_lt.2 hf, Nat.not_lt.2 hc⟩))
  · exact (if_neg hready).trans (if_neg (Nat.one_le_iff_ne_zero.1 hf))

/-- A symbol's interval that is not empty is inside [0, 32768], so an illegal one is empty (R202). -/
theorem exec_encode_of_illegal {s : State} {i : Instr} {cum fr : Nat} (hi : s.encodes i cum fr) (ha : s.enc.state = .active)
    (h : fr < 1 ∨ Config.total < cum + fr) : exec i s = .next (s.failedWith .badArgument na na) := by
  have hready := not_not.2 ha
  obtain ⟨rfl, rfl, rfl⟩ | ⟨b, rfl, rfl, rfl⟩ := hi
  · exact (if_neg hready).trans (if_pos h)
  · have hzero : freqFn (s32 s.argLo.c0) b = 0 := by
      by_contra hne
      have := cdfFn_add_freqFn_le (Nat.one_le_iff_ne_zero.2 hne)
      omega
    exact (if_neg hready).trans (if_pos hzero)

theorem exec_encFlush_of_active {s : State} (ha : s.enc.state = .active) :
    exec .encFlush s = outcomeOf s.withEncPort s.afterFlush (flushFn .na s.encPort) := if_neg (not_not.2 ha)

/-! ## The decoder's commands -/

theorem exec_decInit_of_le {s : State} (h : s.argU 0 + s.argU 1 ≤ s.buf.size) :
    exec .decInit s
      = outcomeOf s.withDec s.withDec (decInitFn .na s.buf (decoderStart s.dec (s.argU 0) (s.argU 0 + s.argU 1))) :=
  if_pos (decide_eq_true h)

theorem exec_decInit_of_lt {s : State} (h : s.buf.size < s.argU 0 + s.argU 1) :
    exec .decInit s = .next (s.failedWith .badArgument na na) :=
  if_neg fun hc => Nat.not_le.2 h (of_decide_eq_true hc)

theorem exec_decVal_of_active {s : State} (ha : s.dec.state = .active) :
    exec .decVal s = .next (s.doneWith { s.result with c0 := BitVec.ofNat 32 (decValFn s.dec) }) := by
  rw [← toWord_natCast]
  exact if_neg (not_not.2 ha)

theorem exec_decConsume_of_legal {s : State} (ha : s.dec.state = .active) (hf : 1 ≤ s.argU 1)
    (hc : s.argU 0 + s.argU 1 ≤ Config.total) :
    exec .decConsume s = outcomeOf s.withDec s.withDec (consumeFn .na s.buf (s.argU 0) (s.argU 1) s.dec) :=
  (if_neg (not_not.2 ha)).trans (if_neg (not_or.2 ⟨Nat.not_lt.2 hf, Nat.not_lt.2 hc⟩))

theorem exec_decSymb_of_active (b : Bucket) {s : State} (ha : s.dec.state = .active) :
    exec (.decSymb b) s = outcomeOf s.withDec s.afterSymbol (decodeSymbol .na s.buf b s.dec) := if_neg (not_not.2 ha)

/-! ## A coder that is not ACTIVE (R270) -/

theorem exec_of_encoder_not_active {i : Instr} {s : State} (hi : needsEncoder i = true) (ha : s.enc.state ≠ .active) :
    exec i s = .next (s.failedWith .coderNotReady na na) := by
  cases i with
  | encSym | encSymb b | encFlush => exact if_pos ha
  | _ => cases hi

theorem exec_of_decoder_not_active {i : Instr} {s : State} (hi : needsDecoder i = true) (ha : s.dec.state ≠ .active) :
    exec i s = .next (s.failedWith .coderNotReady na na) := by
  cases i with
  | decVal | decConsume | decSymb b => exact if_pos ha
  | _ => cases hi

/-! ## The scaled value (R292) -/

/-- The decoder's r of an ACTIVE decoder is at least 2^9 (R273). -/
theorem scaledRange_ge {x : Nat} (h : Config.rcTop ≤ x) : 2 ^ 9 ≤ x / 2 ^ 15 := (Nat.le_div_iff_mul_le (by decide)).2 h

theorem decValFn_of_wide {d : Decoder} (h : Config.rcTop ≤ u32 d.range) :
    decValFn d = min (u32 d.code / (u32 d.range / 2 ^ 15)) 32767 := by
  have hr := scaledRange_ge h
  simp only [decValFn]
  rw [if_neg (by omega)]

/-- The symbol that a scaled value selects is the one whose interval it is in (R203, R297). -/
theorem icdfFn_eq_of_mem {x : Int} {y : Nat} {b : Bucket} (hy : y < Config.total) (h1 : cdfFn x b ≤ y)
    (h2 : y < cdfFn x b + freqFn x b) : icdfFn y b = x := by
  have hle := (cdfFn_le_iff_le_icdfFn b hy x).1 h1
  have hge := (lt_cdfFn_succ_iff b hy x).1 (by unfold freqFn at h2; omega)
  omega

/-! ## What ENC_INIT and DEC_VAL do -/

theorem encoderStart_u32 (a l : Word) :
    encoderStart (u32 a) (u32 a + u32 l)
      = { low := 0#33, range := 0xFFFFFFFF#32, cache := 0#8, csize := 1#32, outBase := a, outPtr := a, outEnd := a + l,
          state := .active } := by
  rw [encoderStart, ofNat_u32, ofNat_u32_add]

/-- Settles O46: the region check is that of R271, and the registers hold the region's ends. -/
theorem encInitResult : Obligations.EncInitResult := by
  intro s _
  refine ⟨fun h => ?_, exec_encInit_of_lt⟩
  rw [← encoderStart_u32]
  exact exec_encInit_of_le h

/-- Settles O50: r is not 0, so the quotient is that of R292. -/
theorem decValResult : Obligations.DecValResult := by
  intro s ha hwide
  rw [exec_decVal_of_active ha, decValFn_of_wide hwide]
  exact ⟨scaledRange_ge hwide, rfl⟩

end Machine
end Sys2Proof
end

section
/-! SUPPORT. Reading the code's bytes: the decoder after k bytes of its region, which is what DEC_INIT leaves with k = 5 or with every
byte of a shorter region (43_range_coder.md R291, R293, R298). -/

namespace Sys2Proof
namespace Machine

/-- n bytes into DEC_CODE, one after the other (R290). -/
def takeBytes (site : Site) (m : Buf) : (n : Nat) → Decoder → Except (Stop Decoder) Decoder
  | 0, d => .ok d
  | n + 1, d => (takeBytes site m n d).bind (takeByte site m)

/-- dec_init_fn clears DEC_CODE and takes five bytes (R291). -/
theorem decInitFn_eq_takeBytes (site : Site) (m : Buf) (d : Decoder) :
    decInitFn site m d = takeBytes site m 5 { d with code := 0#32, range := 0xFFFFFFFF#32 } := rfl

/-- The decoder d with the k bytes from address a, and none before, taken into DEC_CODE. -/
def Decoder.loaded (d : Decoder) (m : Buf) (a k : Nat) : Decoder :=
  { d with code := BitVec.ofNat 32 (m.bigNumber a k), inPtr := BitVec.ofNat 32 (a + k) }

theorem loaded_zero {d : Decoder} (m : Buf) (h : d.code = 0#32) : d.loaded m (u32 d.inPtr) 0 = d := by
  rw [Decoder.loaded, Nat.add_zero, ofNat_u32, Buf.bigNumber, ← h]

/-- One more byte enters DEC_CODE: the code is the number of the bytes taken, mod 2^32. -/
theorem takeByte_loaded {site : Site} {m : Buf} {d : Decoder} {a k : Nat} (h : a + k < u32 d.inEnd)
    (hm : u32 d.inEnd ≤ m.size) : takeByte site m (d.loaded m a k) = .ok (d.loaded m a (k + 1)) := by
  have hend := u32_lt d.inEnd
  have hptr : u32 (BitVec.ofNat 32 (a + k)) = a + k := u32_ofNat (by omega)
  obtain ⟨e, he⟩ := takeByte_of_lt (site := site) (m := m) (d := d.loaded m a k) (hptr.trans_lt h) hm
  obtain ⟨-, -, rfl⟩ := takeByte_eq_ok he
  rw [he]
  simp only [Decoder.loaded, hptr, Buf.bigNumber]
  congr 2
  · apply BitVec.eq_of_toNat_eq
    simp only [u32, BitVec.toNat_ofNat]
    omega
  · exact (BitVec.ofNat_add (a + k) 1).symm

theorem takeByte_loaded_end {site : Site} {m : Buf} {d : Decoder} {a k : Nat} (h : u32 d.inEnd = a + k) :
    takeByte site m (d.loaded m a k) = .error (.raised .inputExhausted site { d.loaded m a k with state := .failed }) := by
  have hptr : u32 (BitVec.ofNat 32 (a + k)) = a + k := by rw [← h, ofNat_u32]
  exact if_pos (h.trans hptr.symm).le

section
variable {site : Site} {m : Buf} {d : Decoder} (hcode : d.code = 0#32) (hm : u32 d.inEnd ≤ m.size)
include hcode hm

/-- n bytes that are there are taken. -/
theorem takeBytes_of_le {n : Nat} (h : u32 d.inPtr + n ≤ u32 d.inEnd) :
    takeBytes site m n d = .ok (d.loaded m (u32 d.inPtr) n) := by
  induction n with
  | zero => rw [takeBytes, loaded_zero m hcode]
  | succ n ih =>
    rw [takeBytes, ih (by omega)]
    exact takeByte_loaded (by omega) hm

/-- With l bytes there and more than l asked for, all l are taken and the next one raises INPUT_EXHAUSTED (R290, R298). -/
theorem takeBytes_of_lt {n l : Nat} (hl : u32 d.inEnd = u32 d.inPtr + l) (h : l < n) :
    takeBytes site m n d
      = .error (.raised .inputExhausted site { d.loaded m (u32 d.inPtr) l with state := .failed }) := by
  induction n with
  | zero => omega
  | succ n ih =>
    rw [takeBytes]
    rcases Nat.lt_or_eq_of_le (Nat.le_of_lt_succ h) with h | rfl
    · rw [ih h]
      rfl
    · rw [takeBytes_of_le hcode hm hl.ge]
      exact takeByte_loaded_end hl

end

/-- The decoder that DEC_INIT leaves after k bytes of the region of l bytes at a, before its state is settled. -/
def decoderLoaded (m : Buf) (a l : Word) (k : Nat) (st : DecState) : Decoder :=
  { code := BitVec.ofNat 32 (m.bigNumber (u32 a) k), range := 0xFFFFFFFF#32, inBase := a, inPtr := BitVec.ofNat 32 (u32 a + k),
    inEnd := a + l, state := st }

section
variable {site : Site} {m : Buf} {d : Decoder} {a l : Word} (hm : u32 a + u32 l ≤ m.size) (hsize : m.size ≤ Config.bufSizeMax)
include hm hsize

theorem u32_regionEnd : u32 (a + l) = u32 a + u32 l := by
  rw [← ofNat_u32_add]
  exact u32_ofNat (by simp only [Config.bufSizeMax] at hsize; omega)

/-- dec_init_fn on a region of at least five bytes. -/
theorem decInitFn_of_le (h : 5 ≤ u32 l) :
    decInitFn site m (decoderStart d (u32 a) (u32 a + u32 l)) = .ok (decoderLoaded m a l 5 .active) := by
  have hend := u32_regionEnd hm hsize
  rw [decInitFn_eq_takeBytes, decoderStart, ofNat_u32_add, ofNat_u32]
  exact takeBytes_of_le rfl (hend.trans_le hm) (by simp only [hend]; omega)

/-- dec_init_fn on a region of fewer than five bytes reads them all. -/
theorem decInitFn_of_lt (h : u32 l < 5) :
    decInitFn site m (decoderStart d (u32 a) (u32 a + u32 l))
      = .error (.raised .inputExhausted site (decoderLoaded m a l (u32 l) .failed)) := by
  have hend := u32_regionEnd hm hsize
  rw [decInitFn_eq_takeBytes, decoderStart, ofNat_u32_add, ofNat_u32]
  exact takeBytes_of_lt rfl (hend.trans_le hm) hend h

end

/-- The first of five bytes leaves DEC_CODE again. -/
theorem code_of_five_bytes (m : Buf) (a : Nat) :
    (BitVec.ofNat 32 (m.bigNumber a 5) : Word) = BitVec.ofNat 32 (m.bigNumber (a + 1) 4) := by
  have hsplit : m.bigNumber a 5 = m.bigNumber a 1 * 256 ^ 4 + m.bigNumber (a + 1) 4 := bigNumber_add m a 1 4
  apply BitVec.eq_of_toNat_eq
  rw [hsplit, BitVec.toNat_ofNat, BitVec.toNat_ofNat]
  omega

/-- Settles O49: dec_init_fn takes five bytes of the region, or all of a shorter one. -/
theorem decInitResult : Obligations.DecInitResult := by
  intro s hsize
  refine ⟨fun hm h5 => ?_, fun hm h5 => ?_, exec_decInit_of_lt⟩
  · rw [exec_decInit_of_le hm]
    simp only [State.argU]
    rw [decInitFn_of_le hm hsize h5, decoderLoaded, code_of_five_bytes, BitVec.ofNat_add, ofNat_u32]
    rfl
  · rw [exec_decInit_of_le hm]
    simp only [State.argU]
    rw [decInitFn_of_lt hm hsize h5, decoderLoaded, ofNat_u32_add]
    rfl

end Machine
end Sys2Proof
end

section
/-! SUPPORT. The results of the encoder's and the decoder's commands, from what encode_fn, flush_fn and consume_fn do to the code value
and to DEC_CODE (43_range_coder.md R272 to R285, R292 to R297). -/

namespace Sys2Proof
namespace Machine

/-! ## The stores (R274, R303) -/

/-- Every encoder command that needs an open encoding only writes from OUT_PTR on, whether it completes, raises or is refused. -/
theorem exec_encGrows {i : Instr} {s t : State} (hi : needsEncoder i = true) (h : exec i s = .next t) :
    EncGrows s.encPort t.encPort := by
  by_cases ha : s.enc.state = .active
  case neg =>
    rw [exec_of_encoder_not_active hi ha] at h
    cases h
    exact encGrows_refl _
  have encodes : ∀ {cum fr : Nat}, s.encodes i cum fr → EncGrows s.encPort t.encPort := by
    intro cum fr hcode
    by_cases hlegal : 1 ≤ fr ∧ cum + fr ≤ Config.total
    · rw [exec_encode_of_legal hcode ha hlegal.1 hlegal.2, outcomeOf_eq_next] at h
      rcases h with ⟨q, hq, rfl⟩ | ⟨e, site, q, hq, rfl⟩
      · exact encodeFn_grows hq
      · exact (encodeFn_stops hq).2.2.2
    · rw [exec_encode_of_illegal hcode ha (by omega)] at h
      cases h
      exact encGrows_refl _
  cases i with
  | encSym => exact encodes (.inl ⟨rfl, rfl, rfl⟩)
  | encSymb b => exact encodes (.inr ⟨b, rfl, rfl, rfl⟩)
  | encFlush =>
    rw [exec_encFlush_of_active ha, outcomeOf_eq_next] at h
    rcases h with ⟨q, hq, rfl⟩ | ⟨e, site, q, hq, rfl⟩
    · exact encGrows_trans (flushFn_grows hq) (encGrows_of_regs rfl rfl rfl)
    · exact (flushFn_stops hq).2.2.2
  | _ => cases hi

/-- Settles O31: the frame of `EncGrows`. -/
theorem encoderStores : Obligations.EncoderStores := by
  intro i s t hi h
  have hgrows := exec_encGrows hi h
  have hptr : u32 s.enc.outPtr ≤ u32 t.enc.outPtr := hgrows.ptr
  have hbound : u32 t.enc.outPtr = u32 s.enc.outPtr ∨ u32 t.enc.outPtr ≤ u32 s.enc.outEnd := hgrows.bound
  exact ⟨hptr, fun hin => hbound.elim (fun heq => heq ▸ hin) id, hgrows.base, hgrows.stop,
    fun b hb => hgrows.outside b (hb.imp id fun hle => Nat.add_sub_cancel' hptr ▸ hle)⟩

/-! ## ENC_SYM and ENC_SYMB (R276, R278, R279) -/

/-- Settles O47: encode_fn on the open encoding of the invariant, and the checks' BAD_ARGUMENT. -/
theorem encodeSymbolResult : Obligations.EncodeSymbolResult := by
  intro s i cum fr hbuf hinv ha hcode
  refine ⟨fun hf hc hroom => ?_, exec_encode_of_illegal hcode ha⟩
  have hsize : s.buf.size ≤ 2 ^ 20 := hbuf.2.2
  have hrun := encRuns_of_inv (p := s.encPort) hinv ha
  have hptrs := encoder_inv_ptrs hinv
  have hend : u32 s.enc.outEnd ≤ s.buf.size := hptrs.2.2
  obtain ⟨q, hq⟩ := encodeFn_of_room (site := .na) hrun.opened hrun.wide hf hc hroom hend (by simp only [State.encPort]; omega)
  obtain ⟨k, hk, hrange, hwide, hmin, hval, hcount, -, hstate⟩ := encodeFn_value hrun.opened hrun.wide hf hc hq
  have hexec : exec i s = .next (s.withEncPort q).complete := by
    rw [exec_encode_of_legal hcode ha hf hc, hq]
    rfl
  obtain ⟨-, -, hbase, hstop, hframe⟩ := encoderStores i s _ (needsEncoder_of_encodes hcode) hexec
  exact ⟨_, k, hexec, rfl, hstate.trans ha, hbase, hstop, hk, hrange, hwide, hmin, hval, hcount, hframe⟩

/-! ## ENC_FLUSH (R280, R281) -/

/-- A function that leaves the rest alone writes low, ENC_CACHE, ENC_CSIZE and OUT_PTR only. -/
theorem encoder_eq_of_sameRest {p q : EncPort} (h : p.sameRest q) :
    q.enc = ⟨q.enc.low, p.enc.range, q.enc.cache, q.enc.csize, p.enc.outBase, q.enc.outPtr, p.enc.outEnd, p.enc.state⟩ := by
  obtain ⟨hrange, hstate, hbase, hstop⟩ := h
  rw [← hrange, ← hstate, ← hbase, ← hstop]

/-- Settles O48: flush_fn on the open encoding of the invariant. -/
theorem encFlushResult : Obligations.EncFlushResult := by
  intro s hbuf hinv ha hroom
  have hsize : s.buf.size ≤ 2 ^ 20 := hbuf.2.2
  have hrun := encRuns_of_inv (p := s.encPort) hinv ha
  have hend : u32 s.enc.outEnd ≤ s.buf.size := (encoder_inv_ptrs hinv).2.2
  have hwide : 0 < u32 s.enc.range := (by decide : 0 < Config.rcTop).trans_le hrun.wide
  obtain ⟨q, hq⟩ := flushFn_of_room (site := .na) hrun.opened hwide hroom hend (by simp only [State.encPort]; omega)
  obtain ⟨hnum, hptr, hlow, hcache, hcsize, hrest⟩ := flushFn_value hrun.opened hwide hq
  have hexec : exec .encFlush s = .next (s.afterFlush q).complete := by
    rw [exec_encFlush_of_active ha, hq]
    rfl
  obtain ⟨-, -, hbase, -, hframe⟩ := encoderStores .encFlush s _ rfl hexec
  refine ⟨_, hexec, rfl, ?_, hptr, ?_, hnum, hframe⟩
  · show ({ q.enc with state := .flushed } : Encoder) = _
    rw [encoder_eq_of_sameRest hrest, hlow, hcache, hcsize]
    rfl
  · exact congrArg (fun base => ({ s.result with c0 := q.enc.outPtr - base } : Quad Word)) hbase

/-! ## DEC_CONSUME and DEC_SYMB (R295 to R297) -/

/-- DEC_CODE after consume_fn, as one remainder: the reduction of the narrowed code mod 2^32 is absorbed. -/
theorem consumed_code {v : Int} {x P y : Nat} (h : x = (u32 (toWord v) * P + y) % 2 ^ 32) :
    (x : Int) = (v * P + y) % 2 ^ 32 := by
  have hv : ((u32 (toWord v) : Nat) : Int) = v % 2 ^ 32 := by
    simp only [u32, toWord, BitVec.toNat_ofInt]
    omega
  subst h
  push_cast
  rw [hv]
  exact ((Int.mod_modEq v _).mul_right _).add_right _

/-- consume_fn writes DEC_CODE, DEC_RANGE and IN_PTR only. -/
theorem decoder_eq_of_reads {d e : Decoder} (h : DecReads d e) (hs : e.state = d.state) :
    e = ⟨e.code, e.range, d.inBase, e.inPtr, d.inEnd, d.state⟩ := by
  rw [← h.base, ← h.stop, ← hs]

/-- DEC_SYMB decodes the symbol whose interval its scaled value is in (R297). -/
theorem decodeSymbol_eq_map {site : Site} {m : Buf} {b : Bucket} {d : Decoder} {x : Int}
    (h1 : cdfFn x b ≤ decValFn d) (h2 : decValFn d < cdfFn x b + freqFn x b) :
    decodeSymbol site m b d = (consumeFn site m (cdfFn x b) (freqFn x b) d).map fun d' => (x, decValFn d, d') := by
  simp only [decodeSymbol, icdfFn_eq_of_mem (decValFn_lt d) h1 h2]

/-- Settles O51: both commands are consume_fn of an interval, which `consumeFn_value` gives. -/
theorem decodeSymbolResult : Obligations.DecodeSymbolResult := by
  intro s i cum fr r hbuf hinv ha hroom hcode
  have hrun := decRuns_of_inv hinv ha
  have hend := (decoder_inv_ptrs hinv).2.2
  have hlegal : 1 ≤ fr ∧ cum + fr ≤ Config.total := by
    rcases hcode with ⟨-, -, -, hf, hc, -⟩ | ⟨b, x, y, -, -, hlo, hhi, rfl, rfl, -⟩
    · exact ⟨hf, hc⟩
    · have hf := one_le_freqFn b (isSymbol_iff.2 ⟨hlo, hhi⟩)
      exact ⟨hf, cdfFn_add_freqFn_le hf⟩
  obtain ⟨e, he⟩ := consumeFn_of_room (site := .na) hrun.wide hlegal.1 hlegal.2 hroom hend
  have hexec : exec i s = .next { s.doneWith r with dec := e } := by
    rcases hcode with ⟨rfl, rfl, rfl, hf, hc, rfl⟩ | ⟨b, x, y, rfl, rfl, -, -, rfl, rfl, h1, h2, rfl⟩
    · rw [exec_decConsume_of_legal ha hf hc]
      simp only [State.argU]
      rw [he]
      rfl
    · rw [← decValFn_of_wide hrun.wide] at h1 h2 ⊢
      rw [exec_decSymb_of_active b ha, decodeSymbol_eq_map h1 h2, he, ← toWord_natCast]
      rfl
  obtain ⟨k, hk, hrange, hwide, hmin, hptr, hval, hstate⟩ := consumeFn_value hrun.wide hlegal.1 hlegal.2 he
  refine ⟨_, k, hexec, rfl, ?_, hk, hrange, hwide, hmin, hptr, ?_⟩
  · exact decoder_eq_of_reads (consumeFn_reads he) hstate
  · have := consumed_code hval
    push_cast at this ⊢
    exact this

end Machine
end Sys2Proof
end

section
/-! SUPPORT. The round trip of the range coder (43_range_coder.md R299, R300). The code that an encoding writes stays, digit by digit,
inside the interval of every encoder on the way (`Covers`), and a decoder in step with such an encoder has in DEC_CODE how far above
the interval's start the code is (`InStep`). An item's encoding moves both to the next item. -/

namespace Sys2Proof
namespace Machine

/-! ## Items -/

/-- The start of an item's interval. -/
def CodeItem.cum : CodeItem → Nat
  | .symbol b x => cdfFn x b
  | .interval cum _ => cum

/-- The length of an item's interval. -/
def CodeItem.fr : CodeItem → Nat
  | .symbol b x => freqFn x b
  | .interval _ fr => fr

theorem CodeItem.legal_interval {i : CodeItem} (h : i.legal) : 1 ≤ i.fr ∧ i.cum + i.fr ≤ Config.total := by
  cases i with
  | symbol b x => exact ⟨one_le_freqFn b h, cdfFn_add_freqFn_le (one_le_freqFn b h)⟩
  | interval cum fr => exact h

theorem s32_toWord_of_symbol {x : Int} (h : isSymbol x = true) : s32 (toWord x) = x := by
  obtain ⟨hlo, hhi⟩ := isSymbol_iff.1 h
  exact s32_toWord (by omega) (by omega)

/-- An operand register holds each number of a legal interval. -/
theorem u32_ofNat_interval {cum fr : Nat} (h : (CodeItem.interval cum fr).legal) :
    u32 (BitVec.ofNat 32 cum) = cum ∧ u32 (BitVec.ofNat 32 fr) = fr := by
  obtain ⟨-, hc⟩ := h
  simp only [Config.total] at hc
  exact ⟨u32_ofNat (by omega), u32_ofNat (by omega)⟩

/-- An item's command encodes the item's interval. -/
theorem encodeItem_eq_exec (s : State) {i : CodeItem} (h : i.legal) :
    ∃ j s', encodeItem s i = exec j s' ∧ s'.encodes j i.cum i.fr ∧ s'.encPort = s.encPort := by
  cases i with
  | symbol b x =>
    refine ⟨.encSymb b, (s.writeArg 0 (toWord x)).accept (encode (.encSymb b)), rfl, .inr ⟨b, rfl, ?_⟩, rfl⟩
    have harg : s32 ((s.writeArg 0 (toWord x)).accept (encode (.encSymb b))).argLo.c0 = x := s32_toWord_of_symbol h
    rw [harg]
    exact ⟨rfl, rfl⟩
  | interval cum fr =>
    obtain ⟨hcum, hfr⟩ := u32_ofNat_interval h
    exact ⟨.encSym, _, rfl, .inl ⟨rfl, hcum.symm, hfr.symm⟩, rfl⟩

/-- A command that ended without an error is one whose computation completed (R403, R404). -/
theorem succeededIn_outcomeOf {π α : Type} {put : π → State} {ok : α → State} {r : Except (Stop π) α} {t : State}
    (h : (outcomeOf put ok r).succeededIn t) : ∃ a, r = .ok a ∧ t = (ok a).complete := by
  obtain ⟨hnext, herr⟩ := h
  rcases outcomeOf_eq_next.1 hnext with hok | ⟨e, site, p, -, rfl⟩
  · exact hok
  · cases herr

theorem encodeItem_succeeded {s u : State} {i : CodeItem} (ha : s.enc.state = .active) (hl : i.legal)
    (h : (encodeItem s i).succeededIn u) : encodeFn .na i.cum i.fr s.encPort = .ok u.encPort := by
  obtain ⟨j, s', heq, hcode, hport⟩ := encodeItem_eq_exec s hl
  obtain ⟨hf, hc⟩ := CodeItem.legal_interval hl
  have hact : s'.enc.state = .active := (congrArg (fun p : EncPort => p.enc.state) hport).trans ha
  rw [heq, exec_encode_of_legal hcode hact hf hc, hport] at h
  obtain ⟨q, hq, rfl⟩ := succeededIn_outcomeOf h
  exact hq

/-- DEC_SYMB returns the symbol that it decodes. -/
theorem recoversItem_of_decodeSymbol {v : State} {b : Bucket} {x : Int} {y : Nat} {e : Decoder} (ha : v.dec.state = .active)
    (h : decodeSymbol .na v.buf b v.dec = .ok (x, y, e)) :
    ∃ u, recoversItem v u (.symbol b x) ∧ u.dec = e ∧ u.buf = v.buf := by
  have hexec : v.issue (.decSymb b) = .next ((v.accept (encode (.decSymb b))).afterSymbol (x, y, e)).complete := by
    have hact : (v.accept (encode (.decSymb b))).dec.state = .active := ha
    rw [State.issue, exec_decSymb_of_active b hact, accept_buf, accept_dec, h]
    rfl
  exact ⟨_, ⟨⟨hexec, rfl⟩, rfl⟩, rfl, rfl⟩

/-- DEC_VAL returns the scaled value (R294). -/
theorem issue_decVal {v : State} (ha : v.dec.state = .active) :
    ∃ w, (v.issue .decVal).succeededIn w ∧ u32 w.result.c0 = decValFn v.dec ∧ w.dec = v.dec ∧ w.buf = v.buf := by
  have hval : u32 (BitVec.ofNat 32 (decValFn v.dec)) = decValFn v.dec := by
    have := decValFn_lt v.dec
    simp only [Config.total] at this
    exact u32_ofNat (by omega)
  exact ⟨_, ⟨exec_decVal_of_active (s := v.accept (encode .decVal)) ha, rfl⟩, hval, rfl, rfl⟩

/-- DEC_CONSUME, issued with an interval, consumes it (R296). -/
theorem issue_decConsume {w : State} {a l : Word} {e : Decoder} (ha : w.dec.state = .active) (hf : 1 ≤ u32 l)
    (hc : u32 a + u32 l ≤ Config.total) (h : consumeFn .na w.buf (u32 a) (u32 l) w.dec = .ok e) :
    ∃ t, (((w.writeArg 0 a).writeArg 1 l).issue .decConsume).succeededIn t ∧ t.dec = e ∧ t.buf = w.buf := by
  have hexec := exec_decConsume_of_legal (s := ((w.writeArg 0 a).writeArg 1 l).accept (encode .decConsume)) ha hf hc
  change _ = outcomeOf _ _ (consumeFn .na w.buf (u32 a) (u32 l) w.dec) at hexec
  rw [h] at hexec
  exact ⟨_, ⟨hexec, rfl⟩, rfl, rfl⟩

/-- A decoder whose scaled value is in an item's interval recovers the item, and consumes the interval. -/
theorem recoversItem_of_consumeFn {v : State} {i : CodeItem} {e : Decoder} (ha : v.dec.state = .active) (hl : i.legal)
    (h1 : i.cum ≤ decValFn v.dec) (h2 : decValFn v.dec < i.cum + i.fr)
    (h : consumeFn .na v.buf i.cum i.fr v.dec = .ok e) : ∃ u, recoversItem v u i ∧ u.dec = e ∧ u.buf = v.buf := by
  cases i with
  | symbol b x =>
    refine recoversItem_of_decodeSymbol (y := decValFn v.dec) ha ?_
    rw [decodeSymbol_eq_map h1 h2]
    exact map_eq_ok.2 ⟨e, h, rfl⟩
  | interval cum fr =>
    obtain ⟨hcum, hfr⟩ := u32_ofNat_interval hl
    obtain ⟨w, hw, hres, hdec, hbuf⟩ := issue_decVal ha
    obtain ⟨t, ht, htdec, htbuf⟩ := issue_decConsume (w := w) (a := BitVec.ofNat 32 cum) (l := BitVec.ofNat 32 fr) (e := e)
      (hdec ▸ ha) (hfr.symm ▸ hl.1) (by rw [hcum, hfr]; exact hl.2) (by rw [hcum, hfr, hdec, hbuf]; exact h)
    exact ⟨t, ⟨w, hw, hres ▸ h1, hres ▸ h2, ht⟩, htdec, htbuf.trans hbuf⟩

/-! ## The code and the intervals on the way -/

/-- The address after the last byte of the code that p's position fixes: the bytes written, the bytes held back, and four for `low`.
A decoder at p's position reads its next byte there. -/
def EncPort.frontier (p : EncPort) : Nat := u32 p.enc.outPtr + u32 p.enc.csize + 4

/-- The code in m, up to p's frontier. -/
def EncPort.codeIn (p : EncPort) (m : Buf) : Nat := m.bigNumber (u32 p.enc.outBase) (p.frontier - u32 p.enc.outBase)

/-- The code in m is inside p's interval: from the code value on, of the width of the range. -/
def Covers (m : Buf) (p : EncPort) : Prop := p.codeValue ≤ p.codeIn m ∧ p.codeIn m < p.codeValue + u32 p.enc.range

/-- The decoder d is where the encoder p was: it has read up to p's frontier, with p's range, and DEC_CODE is how far above p's code
value the code is. -/
structure InStep (m : Buf) (p : EncPort) (d : Decoder) : Prop where
  active : d.state = .active
  range : d.range = p.enc.range
  ptr : u32 d.inPtr = p.frontier
  code : p.codeIn m = p.codeValue + u32 d.code

/-- From p to q the encoder took the interval of length fr from cum, with k passes of its renormalisation (R276). -/
structure Encodes (cum fr k : Nat) (p q : EncPort) : Prop where
  base : q.enc.outBase = p.enc.outBase
  order : u32 p.enc.outBase ≤ u32 p.enc.outPtr
  value : q.codeValue = (p.codeValue + u32 p.enc.range / 2 ^ 15 * cum) * 256 ^ k
  range : u32 q.enc.range = u32 p.enc.range / 2 ^ 15 * fr * 256 ^ k
  enough : 2 ^ 24 ≤ u32 q.enc.range
  fewest : k = 0 ∨ u32 p.enc.range / 2 ^ 15 * fr * 256 ^ (k - 1) < 2 ^ 24
  frontier : q.frontier = p.frontier + k

theorem encodes_of_encodeFn {site : Site} {cum fr : Nat} {p0 p q : EncPort} (hrun : EncRuns p0 p) (hf : 1 ≤ fr)
    (hc : cum + fr ≤ Config.total) (h : encodeFn site cum fr p = .ok q) : ∃ k, Encodes cum fr k p q := by
  obtain ⟨k, -, hrange, hwide, hmin, hval, hcount, -, -⟩ := encodeFn_value hrun.opened hrun.wide hf hc h
  exact ⟨k, (encodeFn_grows h).base, hrun.opened.order, hval, hrange, hwide, hmin, by simp only [EncPort.frontier]; omega⟩

section
variable {m : Buf} {cum fr k : Nat} {p q : EncPort} (h : Encodes cum fr k p q)
include h

/-- The code up to q's frontier is the code up to p's and k bytes more. -/
theorem Encodes.codeIn : q.codeIn m = p.codeIn m * 256 ^ k + m.bigNumber p.frontier k := by
  have horder := h.order
  have hsplit : q.frontier - u32 p.enc.outBase = (p.frontier - u32 p.enc.outBase) + k := by
    have := h.frontier
    simp only [EncPort.frontier] at this ⊢
    omega
  rw [EncPort.codeIn, h.base, hsplit, bigNumber_add, Nat.add_sub_cancel' (by simp only [EncPort.frontier]; omega)]
  rfl

/-- A code inside the interval after an item was inside the item's part of the interval before it. -/
theorem Encodes.code_bounds (hq : Covers m q) :
    p.codeValue + u32 p.enc.range / 2 ^ 15 * cum ≤ p.codeIn m ∧
      p.codeIn m < p.codeValue + u32 p.enc.range / 2 ^ 15 * (cum + fr) := by
  obtain ⟨hlo, hhi⟩ := hq
  have hrest := bigNumber_lt m p.frontier k
  rw [h.codeIn, h.value] at hlo
  rw [h.codeIn, h.value, h.range, ← Nat.add_mul] at hhi
  constructor
  · have : (p.codeValue + u32 p.enc.range / 2 ^ 15 * cum) * 256 ^ k < (p.codeIn m + 1) * 256 ^ k := by
      rw [Nat.add_mul _ 1]
      omega
    exact Nat.le_of_lt_succ (Nat.lt_of_mul_lt_mul_right this)
  · rw [Nat.mul_add, ← Nat.add_assoc]
    exact Nat.lt_of_mul_lt_mul_right (Nat.lt_of_le_of_lt (Nat.le_add_right _ _) hhi)

/-- Intervals nest: a code inside the interval after an item is inside the one before it (R272). -/
theorem Encodes.covers (hc : cum + fr ≤ Config.total) (hq : Covers m q) : Covers m p := by
  obtain ⟨hlo, hhi⟩ := h.code_bounds hq
  have hpart : u32 p.enc.range / 2 ^ 15 * (cum + fr) ≤ u32 p.enc.range :=
    (Nat.mul_le_mul_left _ hc).trans (Nat.div_mul_le_self _ _)
  exact ⟨(Nat.le_add_right _ _).trans hlo, by omega⟩

variable {d : Decoder} (hd : InStep m p d)
include hd

/-- The scaled value of a decoder in step is in the item's interval (R292). -/
theorem Encodes.decValFn_mem (hwide : Config.rcTop ≤ u32 p.enc.range) (hc : cum + fr ≤ Config.total) (hq : Covers m q) :
    cum ≤ decValFn d ∧ decValFn d < cum + fr := by
  obtain ⟨hlo, hhi⟩ := h.code_bounds hq
  have hcode := hd.code
  have hr := scaledRange_ge hwide
  rw [← hd.range] at hwide
  rw [decValFn_of_wide hwide, hd.range]
  have h1 : cum ≤ u32 d.code / (u32 p.enc.range / 2 ^ 15) := by
    rw [Nat.le_div_iff_mul_le (by omega), Nat.mul_comm]
    omega
  have h2 : u32 d.code / (u32 p.enc.range / 2 ^ 15) < cum + fr := by
    rw [Nat.div_lt_iff_lt_mul (by omega), Nat.mul_comm]
    omega
  simp only [Config.total] at hc
  omega

end

/-- The renormalisations of encode_fn and consume_fn make the same number of passes. -/
theorem passes_unique {x j k : Nat} (hj : 2 ^ 24 ≤ x * 256 ^ j) (hj' : j = 0 ∨ x * 256 ^ (j - 1) < 2 ^ 24)
    (hk : 2 ^ 24 ≤ x * 256 ^ k) (hk' : k = 0 ∨ x * 256 ^ (k - 1) < 2 ^ 24) : j = k := by
  have le_of : ∀ {a b : Nat}, (a = 0 ∨ x * 256 ^ (a - 1) < 2 ^ 24) → 2 ^ 24 ≤ x * 256 ^ b → a ≤ b := by
    intro a b ha hb
    by_contra hlt
    have hpow : x * 256 ^ b ≤ x * 256 ^ (a - 1) := Nat.mul_le_mul_left _ (Nat.pow_le_pow_right (by decide) (by omega))
    omega
  exact Nat.le_antisymm (le_of hj' hk) (le_of hk' hj)

/-- With the code inside the new interval [(v + a)·P, (v + a)·P + w), DEC_CODE's reduction mod 2^32 does nothing. -/
theorem code_without_wrap {v a c y w x P : Nat} (hlo : (v + a) * P ≤ (v + c) * P + y) (hhi : (v + c) * P + y < (v + a) * P + w)
    (hw : w < 2 ^ 32) (hx : (x : Int) = (((c : Int) - a) * P + y) % 2 ^ 32) : (v + c) * P + y = (v + a) * P + x := by
  have hsplit : ((c : Int) - a) * P + y = ((v + c) * P + y : Nat) - ((v + a) * P : Nat) := by
    push_cast
    ring
  rw [hsplit, Int.emod_eq_of_lt (by omega) (by omega)] at hx
  omega

/-- consume_fn of the item's interval keeps a decoder in step, if the code is inside the encoder's next interval (R295, R299). -/
theorem Encodes.consumeFn_inStep {site : Site} {m : Buf} {cum fr k : Nat} {p q : EncPort} {d : Decoder} (h : Encodes cum fr k p q)
    (hd : InStep m p d) (hwide : Config.rcTop ≤ u32 p.enc.range) (hf : 1 ≤ fr) (hc : cum + fr ≤ Config.total) (hq : Covers m q)
    (hin : q.frontier ≤ u32 d.inEnd) (hm : u32 d.inEnd ≤ m.size) :
    ∃ e, consumeFn site m cum fr d = .ok e ∧ InStep m q e ∧ e.inEnd = d.inEnd := by
  have hrange : u32 d.range = u32 p.enc.range := congrArg u32 hd.range
  have henough : 2 ^ 24 ≤ u32 (decNarrow cum fr d).range * 256 ^ k := by
    rw [decNarrow_range hc, hrange, ← h.range]
    exact h.enough
  obtain ⟨e, he⟩ : ∃ e, consumeFn site m cum fr d = .ok e :=
    decRenorm_of_room henough (by rw [h.frontier] at hin; exact hd.ptr ▸ hin) hm
  obtain ⟨j, -, hrj, hwj, hmj, hpj, hcj, hst⟩ := consumeFn_value (hrange ▸ hwide) hf hc he
  rw [hrange] at hrj hmj hcj
  obtain rfl : j = k := passes_unique (hrj ▸ hwj) hmj (h.range ▸ h.enough) h.fewest
  have hcode := consumed_code hcj
  have hrq : u32 e.range = u32 q.enc.range := hrj.trans h.range.symm
  refine ⟨e, he, ⟨hst.trans hd.active, BitVec.eq_of_toNat_eq hrq, ?_, ?_⟩, (consumeFn_reads he).stop⟩
  · rw [hpj, hd.ptr, h.frontier]
  · obtain ⟨hlo, hhi⟩ := hq
    rw [h.codeIn, h.value, hd.code] at hlo hhi ⊢
    rw [hd.ptr] at hcode
    exact code_without_wrap hlo hhi (u32_lt q.enc.range) hcode

/-! ## Sequences of items -/

/-- Encoding items keeps an encoder running. -/
theorem encodesTo_runs {p0 : EncPort} {items : List CodeItem} {s t : State} (hrun : EncRuns p0 s.encPort)
    (hl : ∀ i ∈ items, i.legal) (h : encodesTo s t items) : EncRuns p0 t.encPort := by
  induction items generalizing s with
  | nil =>
    cases h
    exact hrun
  | cons i rest ih =>
    obtain ⟨hi, hrest⟩ := List.forall_mem_cons.1 hl
    obtain ⟨u, hu, hut⟩ := h
    obtain ⟨hf, hc⟩ := CodeItem.legal_interval hi
    exact ih ((ends_iff.1 (encodeFn_runs hrun hf hc)).1 _ (encodeItem_succeeded hrun.active hi hu)) hrest hut

/-- If a code is inside the interval after the items, it is inside the one before them, and a decoder in step before the items
recovers them all and is in step after them. -/
theorem recoversTo_of_encodesTo {m : Buf} {p0 : EncPort} {items : List CodeItem} {s t : State} (hrun : EncRuns p0 s.encPort)
    (hl : ∀ i ∈ items, i.legal) (h : encodesTo s t items) (ht : Covers m t.encPort) :
    Covers m s.encPort ∧ s.encPort.frontier ≤ t.encPort.frontier ∧
      ∀ v : State, v.buf = m → InStep m s.encPort v.dec → t.encPort.frontier ≤ u32 v.dec.inEnd → u32 v.dec.inEnd ≤ m.size →
        ∃ w, recoversTo v w items ∧ InStep m t.encPort w.dec := by
  induction items generalizing s with
  | nil =>
    cases h
    exact ⟨ht, Nat.le_refl _, fun v _ hv _ _ => ⟨v, rfl, hv⟩⟩
  | cons i rest ih =>
    obtain ⟨hi, hrest⟩ := List.forall_mem_cons.1 hl
    obtain ⟨u, hu, hut⟩ := h
    obtain ⟨hf, hc⟩ := CodeItem.legal_interval hi
    have hfn := encodeItem_succeeded hrun.active hi hu
    obtain ⟨k, hk⟩ := encodes_of_encodeFn hrun hf hc hfn
    obtain ⟨hcov, hfront, hrec⟩ := ih ((ends_iff.1 (encodeFn_runs hrun hf hc)).1 _ hfn) hrest hut
    have hstep : s.encPort.frontier ≤ u.encPort.frontier := hk.frontier ▸ Nat.le_add_right _ _
    refine ⟨hk.covers hc hcov, hstep.trans hfront, fun v hv hd hend hm => ?_⟩
    obtain ⟨hmem1, hmem2⟩ := hk.decValFn_mem hd hrun.wide hc hcov
    obtain ⟨e, he, hin, hstop⟩ := hk.consumeFn_inStep (site := .na) hd hrun.wide hf hc hcov (hfront.trans hend) hm
    obtain ⟨v', hv', rfl, hbuf⟩ := recoversItem_of_consumeFn hd.active hi hmem1 hmem2 (hv ▸ he)
    obtain ⟨w, hw, hwin⟩ := hrec v' (hbuf.trans hv) hin (hstop ▸ hend) (hstop ▸ hm)
    exact ⟨w, ⟨v', hv', hw⟩, hwin⟩

/-! ## The two ends of an encoding -/

/-- ENC_INIT, when it succeeds, starts an encoder on a region inside BUF (R277). -/
theorem encInit_succeeded {s t : State} (h : (s.issue .encInit).succeededIn t) :
    s.argU 0 + s.argU 1 ≤ s.buf.size ∧ t.encPort = ⟨encoderStart (s.argU 0) (s.argU 0 + s.argU 1), s.buf⟩ := by
  obtain ⟨hnext, herr⟩ := h
  rcases Nat.lt_or_ge s.buf.size (s.argU 0 + s.argU 1) with hlt | hle
  · have hexec := (exec_encInit_of_lt (s := s.accept (encode .encInit)) hlt).symm.trans hnext
    cases hexec
    cases herr
  · have hexec := (exec_encInit_of_le (s := s.accept (encode .encInit)) hle).symm.trans hnext
    cases hexec
    exact ⟨hle, rfl⟩

/-- ENC_FLUSH, when it succeeds, leaves the whole code in BUF and its length in RESULT0 (R281). -/
theorem encFlush_succeeded {p0 : EncPort} {s t : State} (hrun : EncRuns p0 s.encPort) (h : (s.issue .encFlush).succeededIn t) :
    Covers t.buf s.encPort ∧ u32 t.enc.outPtr = s.encPort.frontier ∧ t.result.c0 = t.enc.outPtr - t.enc.outBase ∧
      EncGrows s.encPort t.encPort := by
  have hact : (s.accept (encode .encFlush)).enc.state = .active := hrun.active
  have hwide : 0 < u32 s.enc.range := (by decide : 0 < Config.rcTop).trans_le hrun.wide
  rw [State.issue, exec_encFlush_of_active hact] at h
  obtain ⟨q, hq, rfl⟩ := succeededIn_outcomeOf h
  obtain ⟨hnum, hptr, -⟩ := flushFn_value hrun.opened hwide hq
  have hcode : s.encPort.codeIn q.buf = s.encPort.codeValue := by
    rw [EncPort.codeIn, EncPort.frontier, ← hptr]
    exact hnum
  exact ⟨⟨hcode.ge, hcode.trans_lt (Nat.lt_add_of_pos_right hwide)⟩, hptr, rfl,
    encGrows_trans (flushFn_grows hq) (encGrows_of_regs rfl rfl rfl)⟩

section
variable (a l : Word) (m m' : Buf)

/-- An encoder that was just started has the code value 0, whatever BUF holds. -/
theorem encoderStart_codeValue : EncPort.codeValue ⟨encoderStart (u32 a) (u32 a + u32 l), m'⟩ = 0 := by
  simp [EncPort.codeValue, encoderStart, Buf.bigNumber, u32]

theorem encoderStart_frontier : EncPort.frontier ⟨encoderStart (u32 a) (u32 a + u32 l), m'⟩ = u32 a + 5 := by
  rw [encoderStart_u32]
  rfl

theorem encoderStart_codeIn : EncPort.codeIn ⟨encoderStart (u32 a) (u32 a + u32 l), m'⟩ m = m.bigNumber (u32 a) 5 := by
  rw [EncPort.codeIn, encoderStart_frontier, encoderStart_u32, Nat.add_sub_cancel_left]

variable {a l m m'}

/-- The decoder that DEC_INIT leaves is in step with the encoder that ENC_INIT started (R277, R293). -/
theorem inStep_start (l' : Word) (ha : u32 a + 5 < 2 ^ 32) (h : Covers m ⟨encoderStart (u32 a) (u32 a + u32 l), m'⟩) :
    InStep m ⟨encoderStart (u32 a) (u32 a + u32 l), m'⟩ (decoderLoaded m a l' 5 .active) := by
  obtain ⟨-, hlt⟩ := h
  rw [encoderStart_codeIn, encoderStart_codeValue, Nat.zero_add] at hlt
  refine ⟨rfl, rfl, ?_, ?_⟩
  · rw [encoderStart_frontier]
    exact u32_ofNat ha
  · rw [encoderStart_codeIn, encoderStart_codeValue, Nat.zero_add]
    exact (u32_ofNat (hlt.trans (u32_lt _))).symm

end

/-- DEC_INIT, issued with a region inside BUF, is dec_init_fn from a fresh start (R293). -/
theorem decodeFrom_of_inBuf {s : State} {a l : Word} (hm : u32 a + u32 l ≤ s.buf.size) :
    ∃ v : State, v.buf = s.buf ∧ v.status.err = false ∧
      s.decodeFrom a l = outcomeOf v.withDec v.withDec (decInitFn .na s.buf (decoderStart s.dec (u32 a) (u32 a + u32 l))) :=
  ⟨((s.writeArg 0 a).writeArg 1 l).accept (encode .decInit), rfl, rfl, exec_decInit_of_le hm⟩

/-- On a region of at least five bytes it takes the first five of them (R291). -/
theorem decodeFrom_of_le {s : State} {a l : Word} (hm : u32 a + u32 l ≤ s.buf.size) (hsize : s.buf.size ≤ Config.bufSizeMax)
    (h : 5 ≤ u32 l) : ∃ d, (s.decodeFrom a l).succeededIn d ∧ d.dec = decoderLoaded s.buf a l 5 .active ∧ d.buf = s.buf := by
  obtain ⟨v, hbuf, herr, hexec⟩ := decodeFrom_of_inBuf hm
  rw [decInitFn_of_le hm hsize h] at hexec
  exact ⟨_, ⟨hexec, herr⟩, rfl, hbuf⟩

/-- What an encoding from ENC_INIT on has written is a region of BUF that starts at the operand a. -/
theorem written_region {a l : Word} {m : Buf} {q : EncPort} (hm : u32 a + u32 l ≤ m.size) (hsize : m.size ≤ Config.bufSizeMax)
    (h : EncGrows ⟨encoderStart (u32 a) (u32 a + u32 l), m⟩ q) :
    q.enc.outBase = a ∧ u32 a ≤ u32 q.enc.outPtr ∧ u32 q.enc.outPtr ≤ q.buf.size ∧ q.buf.size = m.size := by
  have hbase : q.enc.outBase = a := h.base.trans (ofNat_u32 a)
  obtain ⟨horder, hend, hin⟩ := encGrows_ptrsInside h (encoderStart_ptrsInside (Nat.le_add_right _ _) hm hsize)
  exact ⟨hbase, hbase ▸ horder, h.size ▸ hend.trans hin, h.size⟩

/-- Settles O52: the code is inside every interval on the way, so a decoder that starts in step with the encoder stays in step. -/
theorem rangeCoderRoundTrip : Obligations.RangeCoderRoundTrip := by
  intro s s1 s2 s3 items hbuf hl h1 h2 h3
  obtain ⟨hle, hport⟩ := encInit_succeeded h1
  have hrun1 : EncRuns s1.encPort s1.encPort := hport ▸ encRuns_encoderStart _ _ s.buf
  have hrun2 := encodesTo_runs hrun1 hl h2
  obtain ⟨hcov2, hptr, hcount, hgrows⟩ := encFlush_succeeded hrun2 h3
  obtain ⟨hcov1, hfront, hrec⟩ := recoversTo_of_encodesTo hrun1 hl h2 hcov2
  obtain ⟨hbase, horder, hin, hsize⟩ := written_region hle hbuf.2.2 (hport ▸ encGrows_trans hrun2.grows hgrows)
  have hmax : s3.buf.size ≤ 2 ^ 20 := hsize.trans_le hbuf.2.2
  simp only [State.encPort] at hbase hin
  rw [hport] at hcov1 hfront hrec
  have hfront1 : u32 s.argLo.c0 + 5 ≤ u32 s3.enc.outPtr := (encoderStart_frontier _ _ _).symm.le.trans (hfront.trans hptr.ge)
  -- the operands of DEC_INIT are the region of the written bytes, of which there are at least five
  rw [hbase] at hcount ⊢
  have hlen : u32 s3.result.c0 = u32 s3.enc.outPtr - u32 s.argLo.c0 := hcount ▸ u32_sub horder
  have hregion : u32 s.argLo.c0 + u32 s3.result.c0 = u32 s3.enc.outPtr := by omega
  obtain ⟨d1, hd1, hdec, hdbuf⟩ := decodeFrom_of_le (hregion.trans_le hin) hmax (by omega)
  have hstop : u32 d1.dec.inEnd = u32 s3.enc.outPtr := by
    rw [hdec, ← hregion]
    exact u32_regionEnd (hregion.trans_le hin) hmax
  obtain ⟨d2, hd2, hstep⟩ := hrec d1 hdbuf (hdec ▸ inStep_start _ (by omega) hcov1) (by rw [hstop, hptr]) (hstop.trans_le hin)
  exact ⟨d1, d2, hd1, hd2, hstep.ptr.trans hptr.symm, hstep.range⟩

end Machine
end Sys2Proof
end

section
/-! SUPPORT. The coder states (43_range_coder.md R270): a coder function that completes leaves its state alone and one that raises sets
FAILED, and from that the state after every command. -/

namespace Sys2Proof
namespace Machine

/-! ## The coder functions, in every state of the machine -/

theorem releaseHeld_state {site : Site} {p q : EncPort} (h : releaseHeld site p = .ok q) : q.enc.state = p.enc.state := by
  obtain ⟨p1, h1, rfl⟩ := map_eq_ok.1 h
  obtain ⟨hregs, -⟩ := putHeld_regs h1
  simp only [hregs]

theorem holdTop_state {site : Site} {p q : EncPort} (h : holdTop site p = .ok q) : q.enc.state = p.enc.state := by
  obtain ⟨-, rfl⟩ := holdTop_eq_ok h
  rfl

theorem shiftLow_state {site : Site} {p q : EncPort} (h : shiftLow site p = .ok q) : q.enc.state = p.enc.state := by
  unfold shiftLow at h
  split at h
  · obtain ⟨p1, h1, h2⟩ := bind_eq_ok.1 h
    exact (holdTop_state h2).trans (releaseHeld_state h1)
  · exact holdTop_state h

theorem encRenorm_state {site : Site} {n : Nat} {p q : EncPort} (h : encRenorm site n p = .ok q) :
    q.enc.state = p.enc.state := by
  induction n generalizing p with
  | zero => cases h; rfl
  | succ n ih =>
    unfold encRenorm at h
    split at h
    · obtain ⟨p1, h1, h2⟩ := bind_eq_ok.1 h
      exact (ih h2).trans (shiftLow_state h1 :)
    · cases h; rfl

theorem encodeFn_state {site : Site} {cum fr : Nat} {p q : EncPort} (h : encodeFn site cum fr p = .ok q) :
    q.enc.state = p.enc.state := (encRenorm_state h :)

/-- A coder function's end: `ok` of its answer, or its exhaustion error with its state FAILED (R282, R298). -/
theorem encodeFn_endState (site : Site) (cum fr : Nat) (p : EncPort) :
    Ends (fun q => q.enc.state = p.enc.state) (fun e q => e = .outputExhausted ∧ q.enc.state = .failed)
      (encodeFn site cum fr p) :=
  ends_iff.2 ⟨fun _ h => encodeFn_state h, fun _ _ _ h => ⟨(encodeFn_stops h).1, (encodeFn_stops h).2.2.1⟩⟩

theorem decRenorm_state {site : Site} {m : Buf} {n : Nat} {d e : Decoder} (h : decRenorm site m n d = .ok e) :
    e.state = d.state := by
  induction n generalizing d with
  | zero => cases h; rfl
  | succ n ih =>
    unfold decRenorm at h
    split at h
    · obtain ⟨d1, h1, h2⟩ := bind_eq_ok.1 h
      obtain ⟨-, -, rfl⟩ := takeByte_eq_ok h1
      exact (ih h2 :)
    · cases h; rfl

theorem consumeFn_state {site : Site} {m : Buf} {cum fr : Nat} {d e : Decoder} (h : consumeFn site m cum fr d = .ok e) :
    e.state = d.state := (decRenorm_state h :)

theorem consumeFn_endState (site : Site) (m : Buf) (cum fr : Nat) (d : Decoder) :
    Ends (fun e => e.state = d.state) (fun e q => e = .inputExhausted ∧ q.state = .failed) (consumeFn site m cum fr d) :=
  ends_iff.2 ⟨fun _ h => consumeFn_state h, fun _ _ _ h => ⟨(consumeFn_stops h).1, (consumeFn_stops h).2.2.1⟩⟩

/-! ## The block commands -/

theorem entropyCode_endState (f ka n oa oc : Nat) (var : Quad Word) (p : EncPort) :
    Ends (fun r => r.2.enc.state = .flushed) (fun e q => e = .outputExhausted ∧ q.enc.state = .failed)
      (entropyCode f ka n oa oc var p) := by
  unfold entropyCode
  split
  · exact ⟨rfl, rfl⟩
  · refine ends_bind (P := fun _ => True) (ends_orNoByte fun _ _ => trivial) fun m _ => ?_
    have fails : ∀ {p0 : EncPort} (e : ErrorCode) (q : EncPort), EncFails p0 e q → e = .outputExhausted ∧ q.enc.state = .failed :=
      fun e q hq => ⟨hq.1, hq.2.1⟩
    have coded := encodeSamples_coding (ka := ka) (n := n) (i := 0) (v0 := var) (var := var)
      ⟨encRuns_encoderStart (oa + 1) (oa + oc) m, id⟩
    exact ends_bind (ends_mono coded (fun _ h => h) fails) fun r _ =>
      ends_bind (ends_mono (flushFn_ends .na r.2) (fun _ h => h) fails) fun _ _ => rfl

/-- COMPRESS fails on its output with ENC_STATE = FAILED, or on a symbol before the encoder started (R361, R363, R367). -/
theorem compressBody_endState (pr : Profile) (s : State) :
    Ends (fun r => r.2.enc.state = .flushed)
      (fun e q => (e = .outputExhausted ∧ q.enc.state = .failed) ∨ (e = .quantOverflow ∧ q.enc.state = s.enc.state))
      (compressBody pr s) := by
  refine ends_bind (ends_liftStop (ends_mono (quantSamples_ends (bufKept_refl _)) (fun _ h => h)
    fun e m hm => .inr ⟨hm.1, rfl⟩)) fun r _ => ?_
  refine ends_bind (ends_mono (entropyCode_endState ..) (fun _ h => h) fun _ _ h => .inl h) ?_
  exact fun _ hr => hr

/-- DECOMPRESS fails on its input with DEC_STATE = FAILED, or on its header before the decoder started (R370, R371). -/
theorem decompressBody_endState (s : State) :
    Ends (fun r => r.2.dec.state = .active)
      (fun e q => (e = .inputExhausted ∧ q.dec.state = .failed) ∨ (e = .badHeader ∧ q.dec.state = s.dec.state))
      (decompressBody s) := by
  unfold decompressBody
  split
  · exact .inl ⟨rfl, rfl⟩
  · refine ends_bind (P := fun _ => True) (ends_orNoByte fun _ _ => trivial) fun header _ => ?_
    simp only
    split
    · exact .inr ⟨rfl, rfl⟩
    · refine ends_bind (ends_liftStop (ends_mono (decInitFn_runs rfl) (fun _ h => h) fun e d hd => .inl ⟨hd.1, hd.2.1⟩))
        fun d hd => ?_
      exact ends_mono (decompressSamples_decoding (v0 := s.pred.var) ⟨hd, id⟩ (bufKept_refl _))
        (fun r hr => hr.1.1.active) fun e q hq => .inl ⟨hq.1.1, hq.1.2.1⟩

/-! ## Every command -/

/-- The coder states after a command are those of R270's table for the code that it ended with, and CODER_NOT_READY is the error of a
command that needs a coder. -/
def CoderReport (i : Instr) (s : State) : Result → Prop
  | .next t =>
    t.enc.state = encStateAfter i s.enc.state t.status.errcode ∧ t.dec.state = decStateAfter i s.dec.state t.status.errcode ∧
      (t.status.errcode = .coderNotReady → needsEncoder i = true ∨ needsDecoder i = true)
  | _ => True

section
variable {i : Instr} {s : State}

theorem succeed_coderReport {u : State} (hs : s.accepted) (hu : u.status.errcode = s.status.errcode)
    (he : u.enc.state = encStateAfter i s.enc.state .none) (hd : u.dec.state = decStateAfter i s.dec.state .none) :
    CoderReport i s (succeed u) := by
  have hcode : u.complete.status.errcode = .none := hu.trans hs.2
  simp only [CoderReport, succeed, hcode]
  exact ⟨he, hd, by simp⟩

theorem failWith_coderReport {e : ErrorCode} {site : Site} (he : s.enc.state = encStateAfter i s.enc.state e)
    (hd : s.dec.state = decStateAfter i s.dec.state e) (hn : e ≠ .coderNotReady) : CoderReport i s (failWith e site s) :=
  ⟨he, hd, fun hc => absurd hc hn⟩

theorem encStateAfter_coderNotReady (hi : i ≠ .srst) (before : EncState) : encStateAfter i before .coderNotReady = before := by
  cases i with
  | srst => exact absurd rfl hi
  | _ => rfl

theorem decStateAfter_coderNotReady (hi : i ≠ .srst) (before : DecState) : decStateAfter i before .coderNotReady = before := by
  cases i with
  | srst => exact absurd rfl hi
  | _ => rfl

theorem notReady_coderReport {site : Site} (hi : needsEncoder i = true ∨ needsDecoder i = true) :
    CoderReport i s (failWith .coderNotReady site s) := by
  have hsrst : i ≠ .srst := by
    rintro rfl
    simp [needsEncoder, needsDecoder] at hi
  exact ⟨(encStateAfter_coderNotReady hsrst _).symm, (decStateAfter_coderNotReady hsrst _).symm, fun _ => hi⟩

theorem ite_coderReport {c : Prop} [Decidable c] {r r' : Result} (h : c → CoderReport i s r) (h' : ¬c → CoderReport i s r') :
    CoderReport i s (if c then r else r') := by
  split
  · exact h ‹_›
  · exact h' ‹_›

theorem outcomeOf_coderReport {π α : Type} {put : π → State} {ok : α → State} {r : Except (Stop π) α} (hs : s.accepted)
    (h : Ends (fun a => (ok a).status.errcode = s.status.errcode ∧ (ok a).enc.state = encStateAfter i s.enc.state .none ∧
        (ok a).dec.state = decStateAfter i s.dec.state .none)
      (fun e p => (put p).enc.state = encStateAfter i s.enc.state e ∧ (put p).dec.state = decStateAfter i s.dec.state e ∧
        e ≠ .coderNotReady) r) : CoderReport i s (outcomeOf put ok r) := by
  rcases r with (⟨e, site, p⟩ | a) | a
  · obtain ⟨he, hd, hn⟩ := h
    exact ⟨he, hd, fun hc => absurd hc hn⟩
  · exact trivial
  · obtain ⟨hu, he, hd⟩ := h
    exact succeed_coderReport hs hu he hd

end

/-- ENC_SYM and ENC_SYMB after their checks. -/
theorem encode_coderReport {i : Instr} {s : State} {cum fr : Nat} (hs : s.accepted) (hi : s.encodes i cum fr) :
    CoderReport i s (outcomeOf s.withEncPort s.withEncPort (encodeFn .na cum fr s.encPort)) := by
  have henc : ∀ e, encStateAfter i s.enc.state e = if e = .outputExhausted then .failed else s.enc.state := by
    obtain ⟨rfl, -⟩ | ⟨b, rfl, -⟩ := hi <;> exact fun _ => rfl
  have hdec : ∀ e, decStateAfter i s.dec.state e = s.dec.state := by
    obtain ⟨rfl, -⟩ | ⟨b, rfl, -⟩ := hi <;> exact fun _ => rfl
  refine outcomeOf_coderReport hs (ends_mono (encodeFn_endState .na cum fr s.encPort) (fun q hq => ⟨rfl, ?_, ?_⟩) ?_)
  · rw [henc]
    exact hq
  · rw [hdec]
    rfl
  · rintro e q ⟨rfl, hq⟩
    rw [henc, hdec]
    exact ⟨hq, rfl, by decide⟩

/-- Every command ends in the coder states of R270's table. -/
theorem exec_coderReport (i : Instr) {s : State} (hs : s.accepted) : CoderReport i s (exec i s) := by
  cases i with
  | nop | srst | prst | cdf b | freq b | v2b | b2v | scalebits | qmul cnj | qexp | predict | classify =>
    exact succeed_coderReport hs rfl rfl rfl
  | icdf b =>
    exact ite_coderReport (fun _ => failWith_coderReport rfl rfl (by decide)) fun _ => succeed_coderReport hs rfl rfl rfl
  | vupd | encInit =>
    exact ite_coderReport (fun _ => succeed_coderReport hs rfl rfl rfl) fun _ => failWith_coderReport rfl rfl (by decide)
  | quant p | dequant p =>
    simp only [exec, execQuant, execDequant]
    split
    · exact failWith_coderReport rfl rfl (by decide)
    · exact succeed_coderReport hs rfl rfl rfl
  | encSym =>
    exact ite_coderReport (fun _ => notReady_coderReport (.inl rfl)) fun _ =>
      ite_coderReport (fun _ => failWith_coderReport rfl rfl (by decide)) fun _ => encode_coderReport hs (.inl ⟨rfl, rfl, rfl⟩)
  | encSymb b =>
    exact ite_coderReport (fun _ => notReady_coderReport (.inl rfl)) fun _ =>
      ite_coderReport (fun _ => failWith_coderReport rfl rfl (by decide)) fun _ =>
        encode_coderReport hs (.inr ⟨b, rfl, rfl, rfl⟩)
  | encFlush =>
    refine ite_coderReport (fun _ => notReady_coderReport (.inl rfl)) fun _ =>
      outcomeOf_coderReport hs (ends_mono (flushFn_ends .na s.encPort) (fun _ _ => ⟨rfl, rfl, rfl⟩) ?_)
    rintro e q ⟨rfl, hq, -⟩
    exact ⟨hq, rfl, by decide⟩
  | decInit =>
    refine ite_coderReport (fun _ => outcomeOf_coderReport hs (ends_mono (decInitFn_runs rfl)
      (fun d hd => ⟨rfl, rfl, hd.active⟩) ?_)) fun _ => failWith_coderReport rfl rfl (by decide)
    rintro e d ⟨rfl, hd, -⟩
    exact ⟨rfl, hd, by decide⟩
  | decVal =>
    exact ite_coderReport (fun _ => notReady_coderReport (.inr rfl)) fun _ => succeed_coderReport hs rfl rfl rfl
  | decConsume =>
    refine ite_coderReport (fun _ => notReady_coderReport (.inr rfl)) fun _ =>
      ite_coderReport (fun _ => failWith_coderReport rfl rfl (by decide)) fun _ =>
        outcomeOf_coderReport hs (ends_mono (consumeFn_endState .na s.buf _ _ s.dec) (fun d hd => ⟨rfl, rfl, hd⟩) ?_)
    rintro e d ⟨rfl, hd⟩
    exact ⟨rfl, hd, by decide⟩
  | decSymb b =>
    refine ite_coderReport (fun _ => notReady_coderReport (.inr rfl)) fun _ =>
      outcomeOf_coderReport hs (ends_map (ends_mono (consumeFn_endState .na s.buf _ _ s.dec) (fun _ hd => hd) ?_)
        fun d hd => ⟨rfl, rfl, hd⟩)
    rintro e d ⟨rfl, hd⟩
    exact ⟨rfl, hd, by decide⟩
  | compress p =>
    refine ite_coderReport (fun _ => ite_coderReport (fun _ => failWith_coderReport rfl rfl (by decide)) fun _ =>
      outcomeOf_coderReport hs (ends_mono (compressBody_endState p s) (fun r hr => ⟨rfl, hr, rfl⟩) ?_)) fun _ =>
        failWith_coderReport rfl rfl (by decide)
    rintro e q (⟨rfl, hq⟩ | ⟨rfl, hq⟩)
    · exact ⟨hq, rfl, by decide⟩
    · exact ⟨hq, rfl, by decide⟩
  | decompress =>
    refine ite_coderReport (fun _ => outcomeOf_coderReport hs (ends_mono (decompressBody_endState s)
      (fun r hr => ⟨rfl, rfl, hr⟩) ?_)) fun _ => failWith_coderReport rfl rfl (by decide)
    rintro e q (⟨rfl, hq⟩ | ⟨rfl, hq⟩)
    · exact ⟨rfl, hq, by decide⟩
    · exact ⟨rfl, hq, by decide⟩

theorem coderReport_next {i : Instr} {s t : State} (hs : s.accepted) (h : exec i s = .next t) :
    CoderReport i s (.next t) := h ▸ exec_coderReport i hs

/-- A step that changes a coder is the reset input or the run of a command (R38). -/
theorem step_changes_coder {s t : State} (h : step s = .next t) (hne : t.enc ≠ s.enc ∨ t.dec ≠ s.dec) :
    (∃ rest, s.inputs = .reset :: rest) ∨
      (s.status.busy = true ∧ (s.inputs = [] ∨ ∃ rest, s.inputs = .engine :: rest) ∧ ∃ i, decode s.latch = .ok i) := by
  rcases step_next h with ⟨rest, hin, -⟩ | ⟨rest, ht⟩ | ⟨rest, hnext, hmove⟩
  · exact .inl ⟨rest, hin⟩
  · exact absurd hne (not_or.2 ⟨not_not.2 ht.enc, not_not.2 ht.dec⟩)
  · rcases engineMove_next hmove with ⟨-, rfl⟩ | ⟨-, rfl⟩ | ⟨hbusy, i, hd, -⟩
    · exact absurd hne (not_or.2 ⟨not_not.2 rfl, not_not.2 rfl⟩)
    · exact absurd hne (not_or.2 ⟨not_not.2 rfl, not_not.2 rfl⟩)
    · exact .inr ⟨hbusy, hnext.imp And.left fun hin => ⟨rest, hin⟩, i, hd⟩

/-- Settles O29: the report of every command, the check that comes first, and the inversion of `step`. -/
theorem coderStateTransitions : Obligations.CoderStateTransitions := by
  refine ⟨fun i s t hs h => ?table, fun i s hi => ?notReady, fun i s t hs he hd h hcode => ?others, fun s => ⟨rfl, rfl⟩,
    fun s t h hne => ?steps⟩
  case table =>
    obtain ⟨henc, hdec, -⟩ := coderReport_next hs h
    exact ⟨henc, hdec⟩
  case notReady => exact hi.elim (fun h => exec_of_encoder_not_active h.1 h.2) fun h => exec_of_decoder_not_active h.1 h.2
  case others =>
    obtain ⟨-, -, hready⟩ := coderReport_next hs h
    simpa [he, hd] using hready hcode
  case steps =>
    exact step_changes_coder h (hne.imp (fun hs heq => hs (congrArg Encoder.state heq)) fun hs heq =>
      hs (congrArg Decoder.state heq))

end Machine
end Sys2Proof
end

section
/-! SUPPORT. What DECOMPRESS decodes, as the commands DEC_INIT and DEC_SYMB return it (45_block.md R370, R371): a decoder function
reads only its input region and raises at the site that its caller gives, so each symbol of the block is the one that a DEC_SYMB
would return from the bytes before the command, and the samples that are written do not touch them. -/

namespace Sys2Proof
namespace Machine

/-! ## The decoder's functions by what they read -/

/-- The same bytes in what is left of d's input region. -/
structure SameInput (m m' : Buf) (d : Decoder) : Prop where
  size : m'.size = m.size
  bytes : ∀ b, u32 d.inPtr ≤ b → b < u32 d.inEnd → m'.byte b = m.byte b

theorem sameInput_refl (m : Buf) (d : Decoder) : SameInput m m d := ⟨rfl, fun _ _ _ => rfl⟩

theorem sameInput_of_reads {m m' : Buf} {d e : Decoder} (h : SameInput m m' d) (k : DecReads d e) : SameInput m m' e :=
  ⟨h.size, fun b h1 h2 => h.bytes b (k.ptr.trans h1) (k.stop ▸ h2)⟩

/-- The stop, raised at another site. -/
def Stop.at {π : Type} (site : Site) : Stop π → Stop π
  | .raised e _ p => .raised e site p
  | .noByte a => .noByte a

theorem mapError_bind {ε ε' α β : Type} (g : ε → ε') (x : Except ε α) (k : α → Except ε β) :
    (x.bind k).mapError g = (x.mapError g).bind fun a => (k a).mapError g := by
  cases x <;> rfl

theorem mapError_map {ε ε' α β : Type} (g : ε → ε') (x : Except ε α) (k : α → β) :
    (x.map k).mapError g = (x.mapError g).map k := by
  cases x <;> rfl

theorem mapError_eq_ok {ε ε' α : Type} {g : ε → ε'} {x : Except ε α} {a : α} : x.mapError g = .ok a ↔ x = .ok a := by
  cases x <;> simp [Except.mapError]

theorem raised_of_mapError_at {π α : Type} {x : Except (Stop π) α} {e : ErrorCode} {site site' : Site} {p : π}
    (h : x.mapError (Stop.at site') = .error (.raised e site p)) : site = site' ∧ ∃ site0, x = .error (.raised e site0 p) := by
  rcases x with (⟨e0, site0, p0⟩ | a) | a <;> cases h
  exact ⟨rfl, site0, rfl⟩

section
variable {site : Site} (site' : Site) {m m' : Buf} {d : Decoder} (h : SameInput m m' d)
include h

theorem takeByte_congr : takeByte site' m' d = (takeByte site m d).mapError (Stop.at site') := by
  unfold takeByte
  split
  · rfl
  · have hload : m'.load (u32 d.inPtr) = m.load (u32 d.inPtr) := by
      rw [Buf.load, Buf.load, h.size, h.bytes _ (Nat.le_refl _) (by omega)]
    rw [hload]
    cases m.load (u32 d.inPtr) <;> rfl

theorem decRenorm_congr (n : Nat) : decRenorm site' m' n d = (decRenorm site m n d).mapError (Stop.at site') := by
  induction n generalizing d with
  | zero => rfl
  | succ n ih =>
    unfold decRenorm
    split
    · rw [takeByte_congr (site := site) site' h, mapError_bind]
      cases hd : takeByte site m d with
      | error e => rfl
      | ok d1 => exact ih (sameInput_of_reads h (decReads_trans (takeByte_reads hd) (decReads_of_regs rfl rfl rfl)))
    · rfl

theorem consumeFn_congr (cum fr : Nat) :
    consumeFn site' m' cum fr d = (consumeFn site m cum fr d).mapError (Stop.at site') :=
  decRenorm_congr (d := decNarrow cum fr d) site' ⟨h.size, h.bytes⟩ _

/-- A symbol's decoding rests on the bytes of the input alone; the site is only reported. -/
theorem decodeSymbol_congr (b : Bucket) : decodeSymbol site' m' b d = (decodeSymbol site m b d).mapError (Stop.at site') := by
  simp only [decodeSymbol]
  rw [consumeFn_congr (site := site) site' h, mapError_map]

end

/-! ## How a computation ends, with its site -/

/-- `Ends`, with the site of a raise. -/
structure EndsAt {π α : Type} (P : α → Prop) (E : ErrorCode → Site → π → Prop) (x : Except (Stop π) α) : Prop where
  ok : ∀ a, x = .ok a → P a
  raised : ∀ e site p, x = .error (.raised e site p) → E e site p

section
variable {π ρ α β : Type} {P Q : α → Prop} {R : β → Prop} {E F : ErrorCode → Site → π → Prop} {x : Except (Stop π) α}

theorem endsAt_ok {a : α} (h : P a) : EndsAt P E (.ok a) := ⟨fun _ ha => by cases ha; exact h, fun _ _ _ he => by cases he⟩

theorem endsAt_mono (h : EndsAt P E x) (hok : ∀ a, P a → Q a) (herr : ∀ e site p, E e site p → F e site p) : EndsAt Q F x :=
  ⟨fun a ha => hok a (h.ok a ha), fun e site p he => herr e site p (h.raised e site p he)⟩

theorem endsAt_bind {f : α → Except (Stop π) β} (h : EndsAt P E x) (k : ∀ a, P a → EndsAt R E (f a)) :
    EndsAt R E (x.bind f) := by
  refine ⟨fun b hb => ?_, fun e site p hp => ?_⟩
  · obtain ⟨a, ha, hb⟩ := bind_eq_ok.1 hb
    exact (k a (h.ok a ha)).ok b hb
  · rcases bind_eq_error.1 hp with hx | ⟨a, ha, hf⟩
    · exact h.raised e site p hx
    · exact (k a (h.ok a ha)).raised e site p hf

theorem endsAt_liftStop {f : π → ρ} {E : ErrorCode → Site → ρ → Prop} (h : EndsAt P (fun e site p => E e site (f p)) x) :
    EndsAt P E (liftStop f x) := by
  refine ⟨fun a ha => h.ok a (liftStop_eq_ok.1 ha), fun e site q hq => ?_⟩
  obtain ⟨st, hst, hmap⟩ := liftStop_eq_error.1 hq
  obtain ⟨p, rfl, rfl⟩ := stop_map_eq_raised.1 hmap.symm
  exact h.raised e site p hst

/-- A computation that never raises. -/
theorem endsAt_of_ends (h : Ends P (fun _ _ => False) x) : EndsAt P E x :=
  ⟨(ends_iff.1 h).1, fun e site p hp => ((ends_iff.1 h).2 e site p hp).elim⟩

end

/-! ## Symbols as DEC_SYMB returns them -/

/-- From the state v the host's commands recover the items and leave the decoder d, and BUF as it was. -/
def RecoversAt (v : State) (items : List CodeItem) (d : Decoder) : Prop :=
  ∃ u, recoversTo v u items ∧ u.buf = v.buf ∧ u.dec = d

/-- From the state v the host's commands recover the items, and a DEC_SYMB in bucket b then runs out of input and leaves the
decoder d. -/
def ExhaustsAt (v : State) (items : List CodeItem) (b : Bucket) (d : Decoder) : Prop :=
  ∃ u t, recoversTo v u items ∧ u.issue (.decSymb b) = .next t ∧ t.status.errcode = .inputExhausted ∧ t.dec = d

theorem recoversTo_append {items items' : List CodeItem} {s u t : State} (h : recoversTo s u items)
    (k : recoversTo u t items') : recoversTo s t (items ++ items') := by
  induction items generalizing s with
  | nil =>
    cases h
    exact k
  | cons i rest ih =>
    obtain ⟨w, hw, hrest⟩ := h
    exact ⟨w, hw, ih hrest⟩

section
variable {v : State} {items : List CodeItem} {b : Bucket} {d : Decoder} (h : RecoversAt v items d) (ha : d.state = .active)
include h ha

theorem RecoversAt.symbol {x : Int} {y : Nat} {e : Decoder} (hd : decodeSymbol .na v.buf b d = .ok (x, y, e)) :
    RecoversAt v (items ++ [.symbol b x]) e := by
  obtain ⟨u, hu, hbuf, rfl⟩ := h
  obtain ⟨w, hw, hdec, hwbuf⟩ := recoversItem_of_decodeSymbol ha (hbuf.symm ▸ hd)
  exact ⟨w, recoversTo_append hu ⟨w, hw, rfl⟩, hwbuf.trans hbuf, hdec⟩

theorem RecoversAt.exhausts {site : Site} {e : Decoder}
    (hd : decodeSymbol .na v.buf b d = .error (.raised .inputExhausted site e)) : ExhaustsAt v items b e := by
  obtain ⟨u, hu, hbuf, rfl⟩ := h
  have hexec := exec_decSymb_of_active b (s := u.accept (encode (.decSymb b))) ha
  rw [accept_buf, accept_dec, hbuf, hd] at hexec
  exact ⟨u, _, hu, hexec, rfl, rfl⟩

end

/-! ## One symbol and one sample -/

/-- A raise in sample i: INPUT_EXHAUSTED at a symbol (i, c), and DEC_SYMB returns the c symbols of the sample before it and runs out
of input at this one (R371). -/
def SampleExhausts (v : State) (items : List CodeItem) (i : Nat) (var : Quad Word) (e : ErrorCode) (site : Site) (d : Decoder) :
    Prop :=
  e = .inputExhausted ∧ ∃ (q : Quad Int) (c : Fin 4), site = .ofSymbol i c ∧
    ExhaustsAt v (items ++ (sampleItems var q).take c.val) (classifyFn (var.get c)) d

/-- The four symbols of a sample, as one chain of decodings (R370). -/
theorem decodeSample_eq (f i : Nat) (w : Predictor) (m : Buf) (d : Decoder) :
    decodeSample f i w m d
      = (decodeChannel f i 0 w.prediction.c0 m w.var d).bind fun r0 =>
        (decodeChannel f i 1 w.prediction.c1 m r0.2.1 r0.2.2).bind fun r1 =>
        (decodeChannel f i 2 w.prediction.c2 m r1.2.1 r1.2.2).bind fun r2 =>
        (decodeChannel f i 3 w.prediction.c3 m r2.2.1 r2.2.2).bind fun r3 =>
        .ok (⟨r0.1, r1.1, r2.1, r3.1⟩, r3.2.1, r3.2.2) := rfl

section
variable {v : State} {items : List CodeItem} {m : Buf} {d0 d : Decoder} {f i : Nat} (hrun : DecRuns d0 d)
  (hin : SameInput v.buf m d0)
include hrun hin

theorem decodeChannel_endsAt (hrec : RecoversAt v items d) (c : Fin 4) (pr : Int) (var : Quad Word) :
    EndsAt (fun r => ∃ x : Int, isSymbol x = true ∧ r.1 = dequantFn pr x f ∧ r.2.1 = var.set c (updateVar (var.get c) x) ∧
        DecRuns d0 r.2.2 ∧ RecoversAt v (items ++ [CodeItem.symbol (classifyFn (var.get c)) x]) r.2.2)
      (fun e site d' => e = .inputExhausted ∧ site = .ofSymbol i c ∧ ExhaustsAt v items (classifyFn (var.get c)) d')
      (decodeChannel f i c pr m var d) := by
  have hcongr := decodeSymbol_congr (site := .na) (.ofSymbol i c) (sameInput_of_reads hin hrun.reads) (classifyFn (var.get c))
  have hends := decodeSymbol_runs (site := .na) (m := v.buf) (b := classifyFn (var.get c)) hrun
  refine ⟨fun r hr => ?_, fun e site d' hd' => ?_⟩
  · obtain ⟨⟨x, y, d'⟩, hd, rfl⟩ := map_eq_ok.1 hr
    rw [hcongr, mapError_eq_ok] at hd
    obtain ⟨hruns, hsym⟩ := (ends_iff.1 hends).1 _ hd
    exact ⟨x, hsym, rfl, rfl, hruns, hrec.symbol hrun.active hd⟩
  · have hd := map_eq_error.1 hd'
    rw [hcongr] at hd
    obtain ⟨rfl, site0, hd⟩ := raised_of_mapError_at hd
    obtain ⟨rfl, -⟩ := (ends_iff.1 hends).2 _ _ _ hd
    exact ⟨rfl, rfl, hrec.exhausts hrun.active hd⟩

/-- Channel c of a sample, after the first c symbols of q: the channel's estimate is still the one from before the sample. -/
theorem decodeChannel_ofSample {var0 var : Quad Word} (c : Fin 4) (q : Quad Int) (pr : Int)
    (hrec : RecoversAt v (items ++ (sampleItems var0 q).take c.val) d) (hvar : var.get c = var0.get c) :
    EndsAt (fun r => ∃ x : Int, isSymbol x = true ∧ r.1 = dequantFn pr x f ∧ r.2.1 = var.set c (updateVar (var0.get c) x) ∧
        DecRuns d0 r.2.2 ∧
        RecoversAt v (items ++ ((sampleItems var0 q).take c.val ++ [CodeItem.symbol (classifyFn (var0.get c)) x])) r.2.2)
      (SampleExhausts v items i var0) (decodeChannel f i c pr m var d) := by
  refine endsAt_mono (decodeChannel_endsAt hrun hin hrec c pr var) ?_ ?_
  · rintro r ⟨x, hx, hval, hset, hruns, hrec⟩
    rw [hvar] at hset hrec
    exact ⟨x, hx, hval, hset, hruns, List.append_assoc .. ▸ hrec⟩
  · rintro e site d' ⟨he, hs, hx⟩
    rw [hvar] at hx
    exact ⟨he, q, c, hs, hx⟩

/-- The four symbols of a sample (R370). -/
theorem decodeSample_endsAt (hrec : RecoversAt v items d) (w : Predictor) :
    EndsAt (fun r => ∃ q : Quad Int, (∀ c, -128 ≤ q.get c ∧ q.get c ≤ 127) ∧ r.1 = reconstruct f w q ∧
        r.2.1 = updateVars w.var q ∧ DecRuns d0 r.2.2 ∧ RecoversAt v (items ++ sampleItems w.var q) r.2.2)
      (SampleExhausts v items i w.var) (decodeSample f i w m d) := by
  rw [decodeSample_eq]
  refine endsAt_bind (decodeChannel_ofSample hrun hin 0 ⟨0, 0, 0, 0⟩ _ (items.append_nil.symm ▸ hrec) rfl) ?_
  rintro r0 ⟨x0, h0, hval0, hvar0, hrun, hrec⟩
  refine endsAt_bind (decodeChannel_ofSample hrun hin 1 ⟨x0, 0, 0, 0⟩ _ hrec (by rw [hvar0]; rfl)) ?_
  rintro r1 ⟨x1, h1, hval1, hvar1, hrun, hrec⟩
  refine endsAt_bind (decodeChannel_ofSample hrun hin 2 ⟨x0, x1, 0, 0⟩ _ hrec (by rw [hvar1, hvar0]; rfl)) ?_
  rintro r2 ⟨x2, h2, hval2, hvar2, hrun, hrec⟩
  refine endsAt_bind (decodeChannel_ofSample hrun hin 3 ⟨x0, x1, x2, 0⟩ _ hrec (by rw [hvar2, hvar1, hvar0]; rfl)) ?_
  rintro r3 ⟨x3, h3, hval3, hvar3, hrun, hrec⟩
  refine endsAt_ok ⟨⟨x0, x1, x2, x3⟩, fun c => isSymbol_iff.1 ?_, ?_, ?_, hrun, hrec⟩
  · fin_cases c
    · exact h0
    · exact h1
    · exact h2
    · exact h3
  · rw [hval0, hval1, hval2, hval3]
    rfl
  · rw [hvar3, hvar2, hvar1, hvar0]
    rfl

end

/-! ## The samples that are written -/

/-- A sample component holds a value of `dequant_fn`, which is an s32 (R323). -/
theorem s32_toWord_dequantFn (pr q : Int) (f : Nat) : s32 (toWord (dequantFn pr q f)) = dequantFn pr q f := s32_toWord_sat32 _

/-- A component reads back as the word stored (R86). -/
theorem component_of_memWrite {sa i : Nat} {c : Fin 4} {x : Word} {m m' : Buf}
    (h : memWrite m (sa + 16 * i + 4 * c.val) 4 (u32 x) = some m') : m'.component sa i c = s32 x := by
  have hnum := number_of_memWrite (j := 0) (n := 4) h (Nat.le_refl 4)
  have hx : u32 x < 256 ^ 4 := u32_lt x
  rw [Nat.add_zero, pow_zero, Nat.div_one, Nat.mod_eq_of_lt hx] at hnum
  rw [Buf.component, hnum, ofNat_u32]

theorem component_congr {sa i : Nat} {c : Fin 4} {m m' : Buf}
    (h : ∀ b, sa + 16 * i + 4 * c.val ≤ b → b < sa + 16 * i + 4 * c.val + 4 → m'.byte b = m.byte b) :
    m'.component sa i c = m.component sa i c := by
  rw [Buf.component, number_congr h, Buf.component]

theorem sample_congr {sa i : Nat} {m m' : Buf} (h : ∀ b, sa + 16 * i ≤ b → b < sa + 16 * i + 16 → m'.byte b = m.byte b) :
    m'.sample sa i = m.sample sa i := by
  have hcomp : ∀ c : Fin 4, m'.component sa i c = m.component sa i c :=
    fun c => component_congr fun b h1 h2 => h b (by omega) (by omega)
  rw [Buf.sample, hcomp, hcomp, hcomp, hcomp, Buf.sample]

/-- From p to p' the component c of sample i was stored, and nothing else (R86, R370). -/
structure ComponentStored (sa i : Nat) (c : Fin 4) (x : Int) (p p' : DecPort) : Prop where
  dec : p'.dec = p.dec
  size : p'.buf.size = p.buf.size
  value : p'.buf.component sa i c = s32 (toWord x)
  frame : ∀ b, outside b (sa + 16 * i + 4 * c.val) 4 → p'.buf.byte b = p.buf.byte b

theorem storeComponent_stored (sa i : Nat) (c : Fin 4) (x : Int) (p : DecPort) {E : ErrorCode → Site → DecPort → Prop} :
    EndsAt (ComponentStored sa i c x p) E (storeComponent sa i c x p) := by
  refine endsAt_of_ends (ends_map (P := fun m => memWrite p.buf _ 4 (u32 (toWord x)) = some m)
    (ends_orNoByte fun m hm => hm) fun m hm => ?_)
  obtain ⟨-, hsize, -, -, -, hframe⟩ := memWrite_eq_some hm
  exact ⟨rfl, hsize, component_of_memWrite hm, hframe⟩

theorem ComponentStored.other {sa i : Nat} {c c' : Fin 4} {x : Int} {p p' : DecPort} (h : ComponentStored sa i c x p p')
    (hc : c' ≠ c) : p'.buf.component sa i c' = p.buf.component sa i c' := by
  have hval : c'.val ≠ c.val := fun he => hc (Fin.ext he)
  exact component_congr fun b h1 h2 => h.frame b (by simp only [outside]; omega)

/-- Four component stores make a sample. -/
theorem sample_of_components {sa i : Nat} {r : Quad Int} {p p0 p1 p2 p3 : DecPort} (h0 : ComponentStored sa i 0 r.c0 p p0)
    (h1 : ComponentStored sa i 1 r.c1 p0 p1) (h2 : ComponentStored sa i 2 r.c2 p1 p2) (h3 : ComponentStored sa i 3 r.c3 p2 p3) :
    p3.dec = p.dec ∧ p3.buf.size = p.buf.size ∧ p3.buf.sample sa i = r.map (fun x => s32 (toWord x)) ∧
      ∀ b, outside b (sa + 16 * i) 16 → p3.buf.byte b = p.buf.byte b := by
  refine ⟨h3.dec.trans (h2.dec.trans (h1.dec.trans h0.dec)), h3.size.trans (h2.size.trans (h1.size.trans h0.size)), ?_,
    fun b hb => ?_⟩
  · rw [Buf.sample, h3.value, h3.other (by decide), h3.other (by decide), h3.other (by decide), h2.value,
      h2.other (by decide), h2.other (by decide), h1.value, h1.other (by decide), h0.value, Quad.map]
  · have sub : ∀ c : Fin 4, outside b (sa + 16 * i + 4 * c.val) 4 := fun c => by
      simp only [outside] at hb ⊢
      omega
    rw [h3.frame b (sub 3), h2.frame b (sub 2), h1.frame b (sub 1), h0.frame b (sub 0)]

/-- A sample's reconstruction is four values of `dequant_fn`, which its components hold exactly. -/
theorem reconstruct_words (f : Nat) (w : Predictor) (q : Quad Int) :
    (reconstruct f w q).map (fun x => s32 (toWord x)) = reconstruct f w q := by
  simp only [reconstruct, Quad.map, s32_toWord_dequantFn]

/-- The samples from i on that decode to the symbols qs were written to m, which became m', and no other byte was (R370). -/
structure SamplesDone (f sa i : Nat) (w : Predictor) (m : Buf) (qs : List (Quad Int)) (m' : Buf) : Prop where
  symbols : ∀ q ∈ qs, ∀ c, -128 ≤ q.get c ∧ q.get c ≤ 127
  samples : m'.samples sa qs.length i = reconstructions f w qs
  frame : ∀ b, outside b (sa + 16 * i) (16 * qs.length) → m'.byte b = m.byte b
  size : m'.size = m.size

theorem samplesDone_nil (f sa i : Nat) (w : Predictor) (m : Buf) : SamplesDone f sa i w m [] m :=
  ⟨by simp, rfl, fun _ _ => rfl, rfl⟩

theorem samplesDone_cons {f sa i : Nat} {w : Predictor} {m m' m'' : Buf} {q : Quad Int} {qs : List (Quad Int)}
    (h : SamplesDone f sa i w m [q] m') (k : SamplesDone f sa (i + 1) (stepWith f w q) m' qs m'') :
    SamplesDone f sa i w m (q :: qs) m'' where
  symbols := List.forall_mem_cons.2 ⟨h.symbols q List.mem_cons_self, k.symbols⟩
  samples := by
    have hfirst : m''.sample sa i = m'.sample sa i :=
      sample_congr fun b h1 h2 => k.frame b (.inl (by omega))
    have hdone : m'.sample sa i = reconstruct f w q := (List.cons.inj h.samples).1
    rw [List.length_cons, Buf.samples, hfirst, hdone, k.samples, reconstructions]
  frame b hb := by
    have hlen := List.length_cons (a := q) (as := qs)
    simp only [outside] at hb
    rw [k.frame b (by simp only [outside]; omega), h.frame b (by simp only [outside, List.length_singleton]; omega)]
  size := k.size.trans h.size

/-- Bytes that the samples do not touch stay the same input. -/
theorem SamplesDone.sameInput {f sa i n : Nat} {w : Predictor} {m0 m m' : Buf} {qs : List (Quad Int)} {d : Decoder}
    (h : SamplesDone f sa i w m qs m') (hin : SameInput m0 m d) (hn : i + qs.length ≤ n)
    (hsep : ∀ b, u32 d.inPtr ≤ b → b < u32 d.inEnd → outside b sa (16 * n)) : SameInput m0 m' d := by
  refine ⟨h.size.trans hin.size, fun b h1 h2 => ?_⟩
  have hout := hsep b h1 h2
  simp only [outside] at hout
  rw [h.frame b (by simp only [outside]; omega), hin.bytes b h1 h2]

/-! ## Sample by sample -/

section
variable {v : State} {items : List CodeItem} {d0 : Decoder} {f sa i : Nat} {w : Predictor} {p : DecPort}

theorem decompressSample_endsAt (hrun : DecRuns d0 p.dec) (hrec : RecoversAt v items p.dec) (hin : SameInput v.buf p.buf d0) :
    EndsAt (fun r => ∃ q, r.1 = stepWith f w q ∧ DecRuns d0 r.2.dec ∧ RecoversAt v (items ++ sampleItems w.var q) r.2.dec ∧
        SamplesDone f sa i w p.buf [q] r.2.buf)
      (fun e site p' => SampleExhausts v items i w.var e site p'.dec ∧ p'.buf = p.buf) (decompressSample f sa i w p) := by
  refine endsAt_bind (endsAt_liftStop (endsAt_mono (decodeSample_endsAt hrun hin hrec w) (fun _ h => h)
    fun e site d h => ⟨h, rfl⟩)) ?_
  rintro ⟨_, _, d⟩ ⟨q, hq, rfl, rfl, hrun, hrec⟩
  refine endsAt_bind (storeComponent_stored ..) fun p0 h0 => endsAt_bind (storeComponent_stored ..) fun p1 h1 =>
    endsAt_bind (storeComponent_stored ..) fun p2 h2 => endsAt_bind (storeComponent_stored ..) fun p3 h3 => ?_
  obtain ⟨hdec, hsize, hsample, hframe⟩ := sample_of_components h0 h1 h2 h3
  rw [reconstruct_words] at hsample
  refine endsAt_ok ⟨q, rfl, hdec.symm ▸ hrun, hdec.symm ▸ hrec, ?_, ?_, hframe, hsize⟩
  · simpa using hq
  · exact congrArg (· :: []) hsample

/-- DECOMPRESS for the samples from i on: it decodes and writes them all, or it runs out of input in a later sample, having written
the ones before (R370, R371). -/
theorem decompressSamples_endsAt {n left : Nat} (hrun : DecRuns d0 p.dec) (hrec : RecoversAt v items p.dec)
    (hin : SameInput v.buf p.buf d0) (hn : i + left ≤ n)
    (hsep : ∀ b, u32 d0.inPtr ≤ b → b < u32 d0.inEnd → outside b sa (16 * n)) :
    EndsAt (fun r => ∃ qs, qs.length = left ∧ r.1 = stepsWith f w qs ∧ DecRuns d0 r.2.dec ∧
        RecoversAt v (items ++ blockItems f w qs) r.2.dec ∧ SamplesDone f sa i w p.buf qs r.2.buf)
      (fun e site p' => ∃ qs, qs.length < left ∧ SamplesDone f sa i w p.buf qs p'.buf ∧
        SampleExhausts v (items ++ blockItems f w qs) (i + qs.length) (stepsWith f w qs).var e site p'.dec)
      (decompressSamples f sa left i w p) := by
  induction left generalizing items i w p with
  | zero => exact endsAt_ok ⟨[], rfl, rfl, hrun, items.append_nil.symm ▸ hrec, samplesDone_nil ..⟩
  | succ left ih =>
    refine endsAt_bind (endsAt_mono (decompressSample_endsAt hrun hrec hin) (fun _ h => h) ?_) ?_
    · rintro e site p' ⟨hx, hbuf⟩
      exact ⟨[], Nat.succ_pos _, hbuf ▸ samplesDone_nil .., items.append_nil.symm ▸ hx⟩
    · rintro ⟨_, p'⟩ ⟨q, rfl, hrun, hrec, hdone⟩
      have hone : [q].length = 1 := rfl
      refine endsAt_mono (ih hrun hrec (hdone.sameInput hin (by omega) hsep) (by omega)) ?_ ?_
      · rintro r ⟨qs, hlen, hw, hrun, hrec, hrest⟩
        exact ⟨q :: qs, congrArg (· + 1) hlen, hw, hrun, List.append_assoc .. ▸ hrec, samplesDone_cons hdone hrest⟩
      · rintro e site p'' ⟨qs, hlen, hrest, hx⟩
        refine ⟨q :: qs, Nat.succ_lt_succ hlen, samplesDone_cons hdone hrest, ?_⟩
        rw [List.append_assoc, Nat.add_right_comm] at hx
        exact hx

end

/-! ## The whole command -/

/-- Where the body of DECOMPRESS runs out of input: with no header, in dec_init_fn, or in a sample (R370, R371). -/
theorem decompressBody_exhausted {s : State} {site : Site} {p : DecPort}
    (h : decompressBody s = .error (.raised .inputExhausted site p)) :
    (s.argU 1 = 0 ∧ site = .na ∧ p = ⟨{ s.dec with state := .failed }, s.buf⟩) ∨
      (1 ≤ s.argU 1 ∧ site = .na ∧ p.buf = s.buf ∧
        decInitFn .na s.buf (decoderStart s.dec (s.argU 0 + 1) (s.argU 0 + s.argU 1))
          = .error (.raised .inputExhausted .na p.dec)) ∨
      (1 ≤ s.argU 1 ∧ ∃ d, decInitFn .na s.buf (decoderStart s.dec (s.argU 0 + 1) (s.argU 0 + s.argU 1)) = .ok d ∧
        decompressSamples (s.buf.byte (s.argU 0)).toNat (s.argU 3) (s.argU 2) 0 s.pred ⟨d, s.buf⟩
          = .error (.raised .inputExhausted site p)) := by
  unfold decompressBody at h
  split at h
  · cases h
    exact .inl ⟨by omega, rfl, rfl⟩
  · have hil : 1 ≤ s.argU 1 := by omega
    rcases bind_eq_error.1 h with h | ⟨header, hheader, h⟩
    · cases (orNoByte_eq_error.1 h).2
    · obtain ⟨-, rfl⟩ := load_eq_some (orNoByte_eq_ok.1 hheader)
      simp only at h
      split at h
      · cases h
      · rcases bind_eq_error.1 h with h | ⟨d, hd, h⟩
        · obtain ⟨st, hst, hmap⟩ := liftStop_eq_error.1 h
          obtain ⟨d, rfl, rfl⟩ := stop_map_eq_raised.1 hmap.symm
          obtain ⟨-, rfl, -⟩ := decInitFn_stops hst
          exact .inr (.inl ⟨hil, rfl, rfl, hst⟩)
        · exact .inr (.inr ⟨hil, d, liftStop_eq_ok.1 hd, h⟩)

theorem exec_decompress_exhausted {s t : State} (hs : s.accepted) (h : exec .decompress s = .next t)
    (hcode : t.status.errcode = .inputExhausted) : regionCheck s.buf.size s.decompressRegions = true ∧ ∃ site p,
      decompressBody s = .error (.raised .inputExhausted site p) ∧ t = (s.withDecPort p).raiseError .inputExhausted site := by
  obtain ⟨-, hnone⟩ := hs
  simp only [exec, execDecompress] at h
  split at h
  · refine ⟨‹_›, ?_⟩
    rcases outcomeOf_eq_next.1 h with ⟨r, -, rfl⟩ | ⟨e, site, p, hbody, rfl⟩
    · cases hnone.symm.trans hcode
    · obtain rfl : e = .inputExhausted := hcode
      exact ⟨site, p, hbody, rfl⟩
  · cases h
    cases hcode

section
variable {s : State} (hil : 1 ≤ s.argU 1) (hin : s.argU 0 + s.argU 1 ≤ s.buf.size) (hsize : s.buf.size ≤ Config.bufSizeMax)
include hil hin hsize

/-- DEC_INIT on the input after the header is the dec_init_fn of DECOMPRESS (R293, R370). -/
theorem decodeFrom_afterHeader : ∃ v : State, v.buf = s.buf ∧ v.status.err = false ∧
    s.decodeFrom (s.argLo.c0 + 1#32) (s.argLo.c1 - 1#32)
      = outcomeOf v.withDec v.withDec (decInitFn .na s.buf (decoderStart s.dec (s.argU 0 + 1) (s.argU 0 + s.argU 1))) := by
  simp only [Config.bufSizeMax] at hsize
  have ha : u32 (s.argLo.c0 + 1#32) = s.argU 0 + 1 := u32_add_one (by simp only [State.argU] at *; omega)
  have hl : u32 (s.argLo.c1 - 1#32) = s.argU 1 - 1 := u32_sub_one hil
  have hend : s.argU 0 + 1 + (s.argU 1 - 1) = s.argU 0 + s.argU 1 := by omega
  have h := decodeFrom_of_inBuf (s := s) (a := s.argLo.c0 + 1#32) (l := s.argLo.c1 - 1#32) (by omega)
  rwa [ha, hl, hend] at h

theorem decodeFrom_exhausts {d : Decoder}
    (h : decInitFn .na s.buf (decoderStart s.dec (s.argU 0 + 1) (s.argU 0 + s.argU 1))
      = .error (.raised .inputExhausted .na d)) :
    ∃ t, s.decodeFrom (s.argLo.c0 + 1#32) (s.argLo.c1 - 1#32) = .next t ∧ t.status.errcode = .inputExhausted ∧ d = t.dec := by
  obtain ⟨v, -, -, hexec⟩ := decodeFrom_afterHeader hil hin hsize
  rw [h] at hexec
  exact ⟨_, hexec, rfl, rfl⟩

theorem decodeFrom_succeeds {d : Decoder}
    (h : decInitFn .na s.buf (decoderStart s.dec (s.argU 0 + 1) (s.argU 0 + s.argU 1)) = .ok d) :
    ∃ t, (s.decodeFrom (s.argLo.c0 + 1#32) (s.argLo.c1 - 1#32)).succeededIn t ∧ t.buf = s.buf ∧ t.dec = d := by
  obtain ⟨v, hbuf, herr, hexec⟩ := decodeFrom_afterHeader hil hin hsize
  rw [h] at hexec
  exact ⟨_, ⟨hexec, herr⟩, hbuf, rfl⟩

end

/-- The input after the header keeps clear of the samples (R360). -/
theorem input_outside_samples {s : State} {d : Decoder} (hsize : s.buf.size ≤ Config.bufSizeMax)
    (hcheck : regionCheck s.buf.size s.decompressRegions = true)
    (hd : DecReads (decoderStart s.dec (s.argU 0 + 1) (s.argU 0 + s.argU 1)) d) :
    ∀ b, u32 d.inPtr ≤ b → b < u32 d.inEnd → outside b (s.argU 3) (16 * s.argU 2) := by
  obtain ⟨hin, -, hsep⟩ := regionCheck_pair hcheck
  simp only [Config.bufSizeMax] at hsize
  simp only at hin
  intro b h1 h2
  have hlow : s.argU 0 + 1 ≤ u32 d.inPtr := (u32_ofNat (by omega)).ge.trans hd.ptr
  have hhigh : u32 d.inEnd = s.argU 0 + s.argU 1 := by
    rw [hd.stop]
    exact u32_ofNat (by omega)
  have := not_both_of_overlaps_false hsep (a := b) ⟨by simp only; omega, by simp only; omega⟩
  simp only [outside] at this ⊢
  omega

/-- Settles O59: the cases of `decompressBody_exhausted`, and in a sample the induction of `decompressSamples_endsAt`. -/
theorem decompressExhaustion : Obligations.DecompressExhaustion := by
  intro s t hbuf hs h hcode
  have hsize : s.buf.size ≤ 2 ^ 20 := hbuf.2.2
  obtain ⟨-, hstate, -⟩ := coderReport_next hs h
  rw [hcode] at hstate
  obtain ⟨hcheck, site, p, hbody, rfl⟩ := exec_decompress_exhausted hs h hcode
  obtain ⟨hin, hsamples, -⟩ := regionCheck_pair hcheck
  simp only at hin hsamples
  refine ⟨rfl, rfl, rfl, rfl, hstate, ?_⟩
  rcases decompressBody_exhausted hbody with ⟨hil, rfl, rfl⟩ | ⟨hil, rfl, hpbuf, hinit⟩ | ⟨hil, d, hinit, hloop⟩
  · refine ⟨fun _ => ⟨rfl, fun _ => rfl, fun h1 => ?_⟩, fun hna => absurd rfl hna⟩
    omega
  · exact ⟨fun _ => ⟨hpbuf, fun h0 => by omega, fun _ => decodeFrom_exhausts hil hin hsize hinit⟩, fun hna => absurd rfl hna⟩
  · obtain ⟨d1, hd1, hd1buf, rfl⟩ := decodeFrom_succeeds hil hin hsize hinit
    have hrun := (ends_iff.1 (decInitFn_runs rfl)).1 _ hinit
    have hends := decompressSamples_endsAt (f := (s.buf.byte (s.argU 0)).toNat) (sa := s.argU 3) (i := 0) (w := s.pred)
      (v := d1) (items := []) (p := ⟨d1.dec, s.buf⟩) ⟨decReads_refl _, hrun.active, hrun.wide⟩ ⟨d1, rfl, rfl, rfl⟩
      (hd1buf ▸ sameInput_refl _ _) (Nat.zero_add _).le (input_outside_samples hsize hcheck hrun.reads)
    obtain ⟨qs, hlen, hdone, -, q, c, rfl, u, d3, hrec, hissue, herr, hdec⟩ := hends.raised _ _ _ hloop
    rw [Nat.zero_add]
    have hsample : u32 (BitVec.ofNat 32 qs.length) = qs.length := u32_ofNat (by omega)
    have hchan : u32 (BitVec.ofNat 32 c.val) = c.val := u32_ofNat (by omega)
    refine ⟨fun hna => ?_, fun _ => ?_⟩
    · have : qs.length = u32 na := hsample.symm.trans (congrArg u32 hna)
      simp [u32] at this
      omega
    · simp only [State.withDecPort, raiseError_errSample, raiseError_errChan, Site.ofSymbol, hsample, hchan]
      exact ⟨hlen, ⟨d1, u, d3, qs, q, c, hd1, rfl, hdone.symbols, rfl, hrec, hissue, herr, hdec.symm, hdone.samples⟩,
        hdone.frame⟩

end Machine
end Sys2Proof
end

section
/-! SUPPORT. The quantizer and the variance update as commands: which of QUANT, DEQUANT and VUPD completes with what, and the
distance of a reconstruction from its component (44_predictor.md R322 to R325, R331, R332, R334). -/

namespace Sys2Proof
namespace Machine

/-! ## The lowest bad channel -/

theorem firstChannel_eq_none {bad : Fin 4 → Bool} (h : ∀ c, bad c = false) : firstChannel bad = none := by
  simp [firstChannel, h]

theorem firstChannel_eq_some {bad : Fin 4 → Bool} {c : Fin 4} (hc : bad c = true) (h : ∀ d, d < c → bad d = false) :
    firstChannel bad = some c := by
  fin_cases c
  · simp_all [firstChannel]
  · simp_all [firstChannel, h 0 (by decide)]
  · simp_all [firstChannel, h 0 (by decide), h 1 (by decide)]
  · simp_all [firstChannel, h 0 (by decide), h 1 (by decide), h 2 (by decide)]

/-! ## The numbers of QUANT and DEQUANT -/

/-- What QUANT rounds, by channel: a from ARG0 to ARG3 and pr from ARG4 to ARG7 (R331). -/
def State.quantized (s : State) (f : Nat) : Quad Int :=
  ⟨quantFn (s32 s.argLo.c0) (s32 s.argHi.c0) f, quantFn (s32 s.argLo.c1) (s32 s.argHi.c1) f,
   quantFn (s32 s.argLo.c2) (s32 s.argHi.c2) f, quantFn (s32 s.argLo.c3) (s32 s.argHi.c3) f⟩

/-- What DEQUANT reconstructs, by channel: q from ARG0 to ARG3 and pr from ARG4 to ARG7 (R332). -/
def State.dequantized (s : State) (f : Nat) : Quad Int :=
  ⟨dequantFn (s32 s.argHi.c0) (s32 s.argLo.c0) f, dequantFn (s32 s.argHi.c1) (s32 s.argLo.c1) f,
   dequantFn (s32 s.argHi.c2) (s32 s.argLo.c2) f, dequantFn (s32 s.argHi.c3) (s32 s.argLo.c3) f⟩

theorem quantized_get (s : State) (f : Nat) (c : Fin 4) :
    (s.quantized f).get c = quantFn (s32 (s.argLo.get c)) (s32 (s.argHi.get c)) f := by
  fin_cases c <;> rfl

theorem dequantized_get (s : State) (f : Nat) (c : Fin 4) :
    (s.dequantized f).get c = dequantFn (s32 (s.argHi.get c)) (s32 (s.argLo.get c)) f := by
  fin_cases c <;> rfl

theorem quantOverflows_args (s : State) (f : Nat) (c : Fin 4) :
    quantOverflows ((quatOf s.argLo).get c) ((quatOf s.argHi).get c) f = !isSymbol ((s.quantized f).get c) := by
  rw [quatOf, quatOf, quad_get_map, quad_get_map, quantOverflows, quantized_get]

theorem isSymbol_arg (s : State) (c : Fin 4) : isSymbol ((quatOf s.argLo).get c) = isSymbol (s32 (s.argLo.get c)) := by
  rw [quatOf, quad_get_map]

theorem not_isSymbol_iff {q : Int} : (!isSymbol q) = true ↔ ¬(-128 ≤ q ∧ q ≤ 127) := by
  rw [← isSymbol_iff, Bool.not_eq_true', Bool.not_eq_true]

theorem not_isSymbol_eq_false_iff {q : Int} : (!isSymbol q) = false ↔ -128 ≤ q ∧ q ≤ 127 := by
  rw [← isSymbol_iff, Bool.not_eq_false']

theorem profile_le (s : State) (p : Profile) : s.profile p ≤ 30 := by
  cases p with
  | prof0 => exact Nat.le_of_lt_succ s.prof0.isLt
  | prof1 => exact Nat.le_of_lt_succ s.prof1.isLt

/-! ## How the commands complete -/

section
variable {s : State} {p : Profile}

theorem exec_quant_of_symbols
    (h : ∀ c, -128 ≤ (s.quantized (s.profile p)).get c ∧ (s.quantized (s.profile p)).get c ≤ 127) :
    exec (.quant p) s = .next (s.doneWith (wordsOf (s.quantized (s.profile p)))) := by
  have hfirst :
      firstChannel (fun c => quantOverflows ((quatOf s.argLo).get c) ((quatOf s.argHi).get c) (s.profile p)) = none :=
    firstChannel_eq_none fun c => by rw [quantOverflows_args, not_isSymbol_eq_false_iff]; exact h c
  simp only [exec, execQuant, hfirst]
  rfl

theorem exec_quant_of_overflow {c : Fin 4}
    (h : ∀ d, d < c → -128 ≤ (s.quantized (s.profile p)).get d ∧ (s.quantized (s.profile p)).get d ≤ 127)
    (hc : ¬(-128 ≤ (s.quantized (s.profile p)).get c ∧ (s.quantized (s.profile p)).get c ≤ 127)) :
    exec (.quant p) s = .next (s.failedWith .quantOverflow na (BitVec.ofNat 32 c.val)) := by
  have hfirst :
      firstChannel (fun c => quantOverflows ((quatOf s.argLo).get c) ((quatOf s.argHi).get c) (s.profile p)) = some c :=
    firstChannel_eq_some (by rw [quantOverflows_args, not_isSymbol_iff]; exact hc)
      fun d hd => by rw [quantOverflows_args, not_isSymbol_eq_false_iff]; exact h d hd
  simp only [exec, execQuant, hfirst]
  rfl

theorem exec_dequant_of_symbols (h : ∀ c, -128 ≤ s32 (s.argLo.get c) ∧ s32 (s.argLo.get c) ≤ 127) :
    exec (.dequant p) s = .next (s.doneWith (wordsOf (s.dequantized (s.profile p)))) := by
  have hfirst : firstChannel (fun c => !isSymbol ((quatOf s.argLo).get c)) = none :=
    firstChannel_eq_none fun c => by rw [isSymbol_arg, not_isSymbol_eq_false_iff]; exact h c
  simp only [exec, execDequant, hfirst]
  rfl

theorem exec_dequant_of_not_symbol {c : Fin 4} (h : ∀ d, d < c → -128 ≤ s32 (s.argLo.get d) ∧ s32 (s.argLo.get d) ≤ 127)
    (hc : ¬(-128 ≤ s32 (s.argLo.get c) ∧ s32 (s.argLo.get c) ≤ 127)) :
    exec (.dequant p) s = .next (s.failedWith .badArgument na (BitVec.ofNat 32 c.val)) := by
  have hfirst : firstChannel (fun c => !isSymbol ((quatOf s.argLo).get c)) = some c :=
    firstChannel_eq_some (by rw [isSymbol_arg, not_isSymbol_iff]; exact hc)
      fun d hd => by rw [isSymbol_arg, not_isSymbol_eq_false_iff]; exact h d hd
  simp only [exec, execDequant, hfirst]
  rfl

theorem exec_vupd_of_symbol (h : isSymbol (s32 s.argLo.c1) = true) :
    exec .vupd s = .next (s.doneWith { s.result with c0 := updateVar s.argLo.c0 (s32 s.argLo.c1) }) := if_pos h

theorem exec_vupd_of_not_symbol (h : ¬isSymbol (s32 s.argLo.c1) = true) :
    exec .vupd s = .next (s.failedWith .badArgument na na) := if_neg h

end

/-! ## QUANT and DEQUANT (R322, R323) -/

/-- `quant_fn` in the numbers of R322: s = 30 − F is 0 for F = 30 only. -/
theorem quantFn_eq {a pr : Int} {f : Nat} (h : f ≤ 30) :
    quantFn a pr f = if f = 30 then a - pr else (a - pr + 2 ^ (29 - f)) / 2 ^ (30 - f) := by
  have hzero : Config.qFrac - f = 0 ↔ f = 30 := by
    simp only [Config.qFrac]
    omega
  have hhalf : Config.qFrac - f - 1 = 29 - f := by
    simp only [Config.qFrac]
    omega
  simp only [quantFn, hzero, hhalf]
  rfl

/-- Settles O42: the statement's q is `quant_fn`, and the error is that of the first channel out of range. -/
theorem quantResult : Obligations.QuantResult := by
  intro s p f e q
  have hq (c : Fin 4) : (s.quantized (s.profile p)).get c = q c := by
    rw [quantized_get]
    exact quantFn_eq (profile_le s p)
  refine ⟨fun h => ?_, fun c h hc => ?_⟩
  · rw [exec_quant_of_symbols fun c => by rw [hq]; exact h c, ← hq 0, ← hq 1, ← hq 2, ← hq 3]
    rfl
  · exact exec_quant_of_overflow (fun d hd => by rw [hq]; exact h d hd) (by rw [hq]; exact hc)

/-- Settles O43: a saturated reconstruction is an s32, which its register holds exactly. -/
theorem dequantResult : Obligations.DequantResult := by
  intro s p f q
  refine ⟨fun h => ⟨_, exec_dequant_of_symbols h, fun c => ?_⟩, fun c => exec_dequant_of_not_symbol⟩
  rw [wordsOf, quad_get_map, dequantized_get, s32_toWord_dequantFn]
  rfl

/-! ## The distance of a reconstruction (R324) -/

/-- Saturation brings no value further from an s32. -/
theorem abs_sat32_sub_le (v : Int) (w : Word) : |sat32 v - s32 w| ≤ |v - s32 w| := by
  obtain ⟨hlow, hhigh⟩ := s32_bounds w
  have := neg_abs_le (v - s32 w)
  have := le_abs_self (v - s32 w)
  rw [sat32_eq, abs_le]
  constructor <;> omega

/-- A quotient by 2s of a number with s added is rounded to nearest: times 2s, it is within s of the number. -/
theorem abs_rounded_mul_sub_le (e : Int) {s : Int} (hs : 0 < s) : |(e + s) / (2 * s) * (2 * s) - e| ≤ s := by
  have hsplit := Int.emod_add_ediv_mul (e + s) (2 * s)
  have hlow := Int.emod_nonneg (e + s) (b := 2 * s) (by omega)
  have hhigh := Int.emod_lt_of_pos (e + s) (b := 2 * s) (by omega)
  rw [abs_le]
  constructor <;> omega

/-- Settles O44: the symbol's rounding error, which saturation does not increase. -/
theorem reconstructionWithinHalfAStep : Obligations.ReconstructionWithinHalfAStep := by
  intro a pr f hf _
  have hdequant : dequantFn (s32 pr) (quantFn (s32 a) (s32 pr) f) f
      = sat32 (s32 pr + quantFn (s32 a) (s32 pr) f * 2 ^ (30 - f)) := rfl
  rw [hdequant, quantFn_eq hf]
  refine ⟨fun hlt => ?_, fun heq => ?_⟩
  · rw [if_neg hlt.ne]
    have hstep : (2 : Int) ^ (30 - f) = 2 * 2 ^ (29 - f) := by
      rw [show 30 - f = 29 - f + 1 by omega, pow_succ']
    have hround := abs_rounded_mul_sub_le (s32 a - s32 pr) (pow_pos (by decide : (0 : Int) < 2) (29 - f))
    rw [hstep]
    refine (abs_sat32_sub_le _ a).trans ?_
    rwa [sub_sub_eq_add_sub, add_comm _ (s32 pr)] at hround
  · obtain ⟨hlow, hhigh⟩ := s32_bounds a
    rw [if_pos heq, heq, Nat.sub_self, pow_zero, mul_one, add_sub_cancel, sat32_of_mem hlow hhigh]

/-! ## VUPD (R325, R334) -/

/-- Settles O45: the square of a Symbol is at most 2^14, and the average is below 2^32. -/
theorem vupdResult : Obligations.VupdResult := by
  intro s v q
  refine ⟨fun hlow hhigh => ?_, fun h => ?_, by decide⟩
  · have hsq0 : 0 ≤ q * q := mul_self_nonneg q
    have hsq : q * q ≤ 2 ^ 14 := by nlinarith
    have hv : v < 2 ^ 32 := u32_lt _
    refine ⟨by omega, by omega, by omega, fun _ => by omega, _, exec_vupd_of_symbol (isSymbol_iff.2 ⟨hlow, hhigh⟩), ?_⟩
    exact u32_toWord (v := vupdFn v q) (by simp only [vupdFn, asr, Config.varShift]; omega)
      (by simp only [vupdFn, asr, Config.varShift]; omega)
  · exact exec_vupd_of_not_symbol fun hsym => by
      have := isSymbol_iff.1 hsym
      omega

end Machine
end Sys2Proof
end

section
/-! SUPPORT. A DECOMPRESS with room for its symbols completes (45_block.md R370, R378): a symbol takes at most two bytes of input
(43_range_coder.md R273), so 6 + 8n bytes, the header's and dec_init_fn's six and eight for each sample, are never exhausted. -/

namespace Sys2Proof
namespace Machine

/-! ## The region check (R360) -/

theorem overlaps_eq_true_iff {r t : Region} : r.overlaps t = true ↔ overlap r.addr r.len t.addr t.len := by
  simp [Region.overlaps, overlap, and_assoc]

theorem regionCheck_decompress {s : State} (h : decompressChecked s) : regionCheck s.buf.size s.decompressRegions = true := by
  obtain ⟨hin, hsamples, hsep⟩ := h
  have hdisjoint : Region.overlaps ⟨s.argU 0, s.argU 1⟩ ⟨s.argU 3, 16 * s.argU 2⟩ = false := by
    rw [← Bool.not_eq_true, overlaps_eq_true_iff]
    exact hsep
  simp [regionCheck, disjointRegions, Region.inBuf, State.decompressRegions, hin, hsamples, hdisjoint]

/-! ## The items of a block -/

/-- The item is a symbol, as all of a block's items are. -/
def CodeItem.IsSymbol (i : CodeItem) : Prop := ∃ b x, i = .symbol b x

theorem sampleItems_isSymbol (var : Quad Word) (q : Quad Int) : ∀ i ∈ sampleItems var q, i.IsSymbol := by
  simp only [sampleItems, List.forall_mem_cons, List.not_mem_nil, false_imp_iff, implies_true, and_true]
  exact ⟨⟨_, _, rfl⟩, ⟨_, _, rfl⟩, ⟨_, _, rfl⟩, ⟨_, _, rfl⟩⟩

theorem blockItems_isSymbol (f : Nat) (w : Predictor) (qs : List (Quad Int)) : ∀ i ∈ blockItems f w qs, i.IsSymbol := by
  induction qs generalizing w with
  | nil => simp [blockItems]
  | cons q qs ih => exact List.forall_mem_append.2 ⟨sampleItems_isSymbol _ _, ih _⟩

theorem blockItems_length (f : Nat) (w : Predictor) (qs : List (Quad Int)) :
    (blockItems f w qs).length = 4 * qs.length := by
  induction qs generalizing w with
  | nil => rfl
  | cons q qs ih =>
    rw [blockItems, List.length_append, ih, List.length_cons, sampleItems]
    simp only [List.length_cons, List.length_nil]
    omega

/-! ## Two bytes for a symbol (R273) -/

/-- A symbol's decoding takes at most two bytes. -/
theorem decodeSymbol_ptr_le {site : Site} {m : Buf} {b : Bucket} {d : Decoder} {r : Int × Nat × Decoder}
    (hwide : Config.rcTop ≤ u32 d.range) (h : decodeSymbol site m b d = .ok r) : u32 r.2.2.inPtr ≤ u32 d.inPtr + 2 := by
  have hfr := one_le_freqFn b (isSymbol_icdfFn b (decValFn_lt d))
  obtain ⟨e, he, rfl⟩ := map_eq_ok.1 h
  obtain ⟨k, hk, -, -, -, hptr, -⟩ := consumeFn_value hwide hfr (cdfFn_add_freqFn_le hfr) he
  exact hptr.trans_le (Nat.add_le_add_left hk _)

/-- A symbol's decoding completes while two bytes are left. -/
theorem decodeSymbol_of_room {site : Site} {m : Buf} {b : Bucket} {d : Decoder} (hwide : Config.rcTop ≤ u32 d.range)
    (hroom : u32 d.inPtr + 2 ≤ u32 d.inEnd) (hend : u32 d.inEnd ≤ m.size) : ∃ r, decodeSymbol site m b d = .ok r := by
  have hfr := one_le_freqFn b (isSymbol_icdfFn b (decValFn_lt d))
  obtain ⟨e, he⟩ := consumeFn_of_room (site := site) (m := m) hwide hfr (cdfFn_add_freqFn_le hfr) hroom hend
  exact ⟨_, map_eq_ok.2 ⟨e, he, rfl⟩⟩

section
variable {d0 : Decoder} {v : State} (hrun : DecRuns d0 v.dec)
include hrun

theorem recoversItem_symbol_reads {u : State} {b : Bucket} {x : Int} (h : recoversItem v u (.symbol b x)) :
    DecRuns d0 u.dec ∧ u.buf = v.buf ∧ u32 u.dec.inPtr ≤ u32 v.dec.inPtr + 2 := by
  obtain ⟨hissue, -⟩ := h
  have hexec := exec_decSymb_of_active b (s := v.accept (encode (.decSymb b))) hrun.active
  rw [State.issue, hexec] at hissue
  obtain ⟨r, hr, rfl⟩ := succeededIn_outcomeOf hissue
  exact ⟨((ends_iff.1 (decodeSymbol_runs hrun)).1 r hr).1, rfl, decodeSymbol_ptr_le hrun.wide hr⟩

theorem recoversTo_reads {u : State} {items : List CodeItem} (hsym : ∀ i ∈ items, i.IsSymbol) (h : recoversTo v u items) :
    DecRuns d0 u.dec ∧ u.buf = v.buf ∧ u32 u.dec.inPtr ≤ u32 v.dec.inPtr + 2 * items.length := by
  induction items generalizing v with
  | nil =>
    cases h
    exact ⟨hrun, rfl, Nat.le_add_right _ _⟩
  | cons i items ih =>
    obtain ⟨⟨b, x, rfl⟩, hrest⟩ := List.forall_mem_cons.1 hsym
    obtain ⟨w, hw, h⟩ := h
    obtain ⟨hwrun, hwbuf, hwptr⟩ := recoversItem_symbol_reads hrun hw
    obtain ⟨hurun, hubuf, huptr⟩ := ih hwrun hrest h
    refine ⟨hurun, hubuf.trans hwbuf, ?_⟩
    rw [List.length_cons]
    omega

/-- With two bytes for each of the items and two more, the symbol after the items does not run out of input. -/
theorem not_exhaustsAt_of_room {items : List CodeItem} {b : Bucket} {d : Decoder} (hsym : ∀ i ∈ items, i.IsSymbol)
    (hroom : u32 v.dec.inPtr + 2 * items.length + 2 ≤ u32 d0.inEnd) (hend : u32 d0.inEnd ≤ v.buf.size) :
    ¬ExhaustsAt v items b d := by
  rintro ⟨u, t, hrec, hissue, hcode, -⟩
  obtain ⟨hurun, hubuf, huptr⟩ := recoversTo_reads hrun hsym hrec
  have hstop := hurun.reads.stop
  obtain ⟨r, hr⟩ := decodeSymbol_of_room (site := .na) (m := u.buf) (b := b) hurun.wide (by rw [hstop]; omega)
    (by rw [hstop, hubuf]; exact hend)
  have hexec := exec_decSymb_of_active b (s := u.accept (encode (.decSymb b))) hurun.active
  rw [accept_buf, accept_dec, hr] at hexec
  cases hexec.symm.trans hissue
  cases hcode

end

/-! ## The whole command -/

/-- DECOMPRESS's loop completes if each of the 4n symbols has its two bytes. -/
theorem decompressSamples_of_room {v : State} {f sa n : Nat} {w : Predictor} (hrun : DecRuns v.dec v.dec)
    (hroom : u32 v.dec.inPtr + 8 * n ≤ u32 v.dec.inEnd) (hend : u32 v.dec.inEnd ≤ v.buf.size)
    (hsa : sa + 16 * n ≤ v.buf.size) (hsep : ∀ b, u32 v.dec.inPtr ≤ b → b < u32 v.dec.inEnd → outside b sa (16 * n)) :
    ∃ qs p, decompressSamples f sa n 0 w ⟨v.dec, v.buf⟩ = .ok (stepsWith f w qs, p) ∧ qs.length = n ∧ DecRuns v.dec p.dec ∧
      RecoversAt v (blockItems f w qs) p.dec ∧ u32 p.dec.inPtr ≤ u32 v.dec.inPtr + 8 * n ∧
      SamplesDone f sa 0 w v.buf qs p.buf := by
  have hinside := decompressSamples_insideBuf (f := f) (v0 := w.var) (p := ⟨v.dec, v.buf⟩) hsa hend (Nat.zero_add n).le
    ⟨hrun, id⟩ (bufKept_refl _)
  have hends := decompressSamples_endsAt (f := f) (i := 0) (w := w) (items := []) (p := ⟨v.dec, v.buf⟩) hrun
    ⟨v, rfl, rfl, rfl⟩ (sameInput_refl _ _) (Nat.zero_add n).le hsep
  cases hloop : decompressSamples f sa n 0 w ⟨v.dec, v.buf⟩ with
  | error e =>
    rcases e with ⟨e, site, p⟩ | a
    · obtain ⟨qs, hlen, -, -, q, c, -, hx⟩ := hends.raised _ _ _ hloop
      refine absurd hx (not_exhaustsAt_of_room hrun ?_ ?_ hend)
      · exact List.forall_mem_append.2 ⟨blockItems_isSymbol f w qs,
          fun i hi => sampleItems_isSymbol _ q i (List.mem_of_mem_take hi)⟩
      · have hbefore : ((sampleItems (stepsWith f w qs).var q).take c.val).length ≤ c.val := List.length_take_le _ _
        rw [List.nil_append, List.length_append, blockItems_length]
        omega
    · exact absurd hloop (hinside a)
  | ok r =>
    obtain ⟨qs, hlen, hw, hprun, hrec, hdone⟩ := hends.ok r hloop
    obtain ⟨u, hu, hubuf, hdec⟩ := hrec
    obtain ⟨-, -, hptr⟩ := recoversTo_reads hrun (blockItems_isSymbol f w qs) hu
    rw [blockItems_length, hlen, hdec] at hptr
    exact ⟨qs, r.2, congrArg Except.ok (Prod.ext hw rfl), hlen, hprun, ⟨u, hu, hubuf, hdec⟩, by omega,
      hdone⟩

section
variable {s : State} (hin : s.argU 0 + s.argU 1 ≤ s.buf.size) (h6 : 6 ≤ s.argU 1)
include hin h6

/-- dec_init_fn on the input after the header, of at least five bytes (R291, R370). -/
theorem decInitFn_afterHeader (hsize : s.buf.size ≤ Config.bufSizeMax) :
    ∃ d, decInitFn .na s.buf (decoderStart s.dec (s.argU 0 + 1) (s.argU 0 + s.argU 1)) = .ok d ∧
      u32 d.inBase = s.argU 0 + 1 ∧ u32 d.inPtr = s.argU 0 + 6 ∧ u32 d.inEnd = s.argU 0 + s.argU 1 := by
  simp only [Config.bufSizeMax] at hsize
  have ha : u32 (s.argLo.c0 + 1#32) = s.argU 0 + 1 := u32_add_one (by simp only [State.argU] at *; omega)
  have hl : u32 (s.argLo.c1 - 1#32) = s.argU 1 - 1 := u32_sub_one (by simp only [State.argU] at *; omega)
  have hregion : u32 (s.argLo.c0 + 1#32) + u32 (s.argLo.c1 - 1#32) = s.argU 0 + s.argU 1 := by omega
  have hinit := decInitFn_of_le (site := .na) (d := s.dec) (hregion.trans_le hin) hsize (by omega)
  rw [hregion, ha] at hinit
  refine ⟨_, hinit, ha, ?_, (u32_regionEnd (hregion.trans_le hin) hsize).trans hregion⟩
  simp only [decoderLoaded, ha]
  exact u32_ofNat (by omega)

/-- After a legal header and dec_init_fn, DECOMPRESS is its loop (R370). -/
theorem decompressBody_of_header {d : Decoder} (hheader : (s.buf.byte (s.argU 0)).toNat ≤ 30)
    (hinit : decInitFn .na s.buf (decoderStart s.dec (s.argU 0 + 1) (s.argU 0 + s.argU 1)) = .ok d) :
    decompressBody s
      = decompressSamples (s.buf.byte (s.argU 0)).toNat (s.argU 3) (s.argU 2) 0 s.pred ⟨d, s.buf⟩ := by
  have hload := load_of_lt (m := s.buf) (a := s.argU 0) (by omega)
  have hlegal : ¬(s.buf.byte (s.argU 0)).toNat > Config.qFrac := Nat.not_lt.2 hheader
  simp only [decompressBody, hload, hinit, orNoByte, liftStop, bind, Except.bind, if_neg hlegal]
  exact if_neg (by omega)

end

/-- Settles O58: DEC_INIT's decoder has its eight bytes for every sample, so the loop completes and decodes as DEC_SYMB does. -/
theorem decompressResult : Obligations.DecompressResult := by
  intro s hbuf hchecked hroom hheader
  have hcheck := regionCheck_decompress hchecked
  obtain ⟨hin, hsamples, -⟩ := hchecked
  have hsize : s.buf.size ≤ 2 ^ 20 := hbuf.2.2
  obtain ⟨d, hinit, hbase, hptr, hend⟩ := decInitFn_afterHeader hin (by omega) hsize
  have hstart := (ends_iff.1 (decInitFn_runs rfl)).1 _ hinit
  obtain ⟨d1, hd1, hd1buf, rfl⟩ := decodeFrom_succeeds (by omega) hin hsize hinit
  have hbody := decompressBody_of_header hin (by omega) hheader hinit
  obtain ⟨qs, p, hloop, hlen, hrun, ⟨d2, hrec, -, hdec⟩, hbound, hdone⟩ :=
    decompressSamples_of_room (v := d1) (f := (s.buf.byte (s.argU 0)).toNat) (w := s.pred)
      ⟨decReads_refl _, hstart.active, hstart.wide⟩ (by omega) (by rw [hend, hd1buf]; exact hin) (by rw [hd1buf]; exact hsamples)
      (input_outside_samples hsize hcheck hstart.reads)
  rw [hd1buf] at hloop hdone
  have hexec : exec .decompress s
      = .next (s.afterDecompress (stepsWith (s.buf.byte (s.argU 0)).toNat s.pred qs, p)).complete := by
    simp only [exec, execDecompress, hcheck, hbody, hloop]
    rfl
  have hread : s.argU 0 + 6 ≤ u32 p.dec.inPtr := hptr.symm.trans_le hrun.reads.ptr
  have hargs : u32 (BitVec.ofNat 32 (s.argU 0)) = s.argU 0 := u32_ofNat (by omega)
  have hle : s.argU 0 ≤ u32 p.dec.inPtr := (Nat.le_add_right _ 6).trans hread
  have hcount : u32 ((s.afterDecompress (stepsWith (s.buf.byte (s.argU 0)).toNat s.pred qs, p)).complete).result.c0
      = u32 p.dec.inPtr - s.argU 0 := (u32_sub (hargs.trans_le hle)).trans (congrArg _ hargs)
  refine ⟨_, d1, d2, qs, hexec, hlen, hdone.symbols, hd1, hrec, hdec.symm, rfl, hrun.active,
    (congrArg u32 hrun.reads.base).trans hbase, (congrArg u32 hrun.reads.stop).trans hend, ?_, ?_, ?_, ?_, ?_⟩
  · rw [hcount]
    exact (Nat.add_sub_cancel' hle).symm
  · omega
  · omega
  · exact hlen ▸ hdone.samples
  · exact fun b hb => hdone.frame b (by rw [hlen]; exact hb)

end Machine
end Sys2Proof
end

section
/-! SUPPORT. The range encoder writes and never reads BUF (43_range_coder.md R303): from two BUFs of one size its functions complete
alike, with the same registers and the same bytes written, at whatever site. So a symbol that COMPRESS encodes over its own scratch
and header is the one that the host's ENC_SYMB would encode. -/

namespace Sys2Proof
namespace Machine

/-! ## The same output -/

/-- Two encoders with the same registers that have written the same bytes, whatever the rest of BUF holds. -/
structure SameOutput (p p' : EncPort) : Prop where
  enc : p'.enc = p.enc
  size : p'.buf.size = p.buf.size
  bytes : ∀ b, u32 p.enc.outBase ≤ b → b < u32 p.enc.outPtr → p'.buf.byte b = p.buf.byte b

/-- Registers other than the pointers may change alike. -/
theorem SameOutput.update {p p' : EncPort} (h : SameOutput p p') (g : Encoder → Encoder)
    (hbase : (g p.enc).outBase = p.enc.outBase) (hptr : (g p.enc).outPtr = p.enc.outPtr) :
    SameOutput { p with enc := g p.enc } { p' with enc := g p'.enc } :=
  ⟨congrArg g h.enc, h.size, fun b h1 h2 => h.bytes b (hbase ▸ h1) (hptr ▸ h2)⟩

/-- If x completes then so does x', with the same output. -/
def Follows (x x' : Except (Stop EncPort) EncPort) : Prop := ∀ q, x = .ok q → ∃ q', x' = .ok q' ∧ SameOutput q q'

theorem follows_ok {p p' : EncPort} (h : SameOutput p p') : Follows (.ok p) (.ok p') := by
  rintro q ⟨⟩
  exact ⟨p', rfl, h⟩

theorem follows_error {e : Stop EncPort} {x' : Except (Stop EncPort) EncPort} : Follows (.error e) x' := fun _ hq => by cases hq

theorem follows_bind {x x' : Except (Stop EncPort) EncPort} {f f' : EncPort → Except (Stop EncPort) EncPort} (h : Follows x x')
    (k : ∀ q q', SameOutput q q' → Follows (f q) (f' q')) : Follows (x.bind f) (x'.bind f') := by
  intro r hr
  obtain ⟨q, hq, hr⟩ := bind_eq_ok.1 hr
  obtain ⟨q', rfl, hqq'⟩ := h q hq
  exact k q q' hqq' r hr

theorem follows_map {x x' : Except (Stop EncPort) EncPort} {g : EncPort → EncPort} (h : Follows x x')
    (k : ∀ q q', SameOutput q q' → SameOutput (g q) (g q')) : Follows (x.map g) (x'.map g) := by
  intro r hr
  obtain ⟨q, hq, rfl⟩ := map_eq_ok.1 hr
  obtain ⟨q', rfl, hqq'⟩ := h q hq
  exact ⟨g q', rfl, k q q' hqq'⟩

/-! ## The encoder's functions -/

section
variable {site site' : Site}

theorem putByte_follows (v : Byte) {p p' : EncPort} (h : SameOutput p p') : Follows (putByte site v p) (putByte site' v p') := by
  intro q hq
  obtain ⟨hlt, henc, hstore⟩ := putByte_eq_ok hq
  have hin := (store_eq_some hstore).1
  have hend := u32_lt p.enc.outEnd
  have hptr : u32 (p.enc.outPtr + 1#32) = u32 p.enc.outPtr + 1 := u32_add_one (by omega)
  obtain ⟨m', hstore'⟩ : ∃ m', p'.buf.store (u32 p.enc.outPtr) v = some m' := ⟨_, store_of_lt v (h.size.symm ▸ hin)⟩
  refine ⟨⟨q.enc, m'⟩, ?_, rfl, (store_size hstore').trans (h.size.trans (store_size hstore).symm), fun b h1 h2 => ?_⟩
  · rw [putByte, h.enc, if_neg (Nat.not_le.2 hlt), hstore', henc]
    rfl
  · simp only [henc, hptr] at h1 h2
    by_cases hb : b = u32 p.enc.outPtr
    · rw [hb, store_byte_same hstore, store_byte_same hstore']
    · rw [store_byte_ne hstore hb, store_byte_ne hstore' hb, h.bytes b h1 (by omega)]

theorem countDown_sameOutput {p p' : EncPort} (h : SameOutput p p') : SameOutput p.countDown p'.countDown :=
  h.update (fun e => { e with csize := e.csize - 1#32 }) rfl rfl

theorem putHeld_follows (carry : Byte) (n : Nat) (temp : Byte) {p p' : EncPort} (h : SameOutput p p') :
    Follows (putHeld site carry n temp p) (putHeld site' carry n temp p') := by
  induction n generalizing temp p p' with
  | zero => exact follows_map (putByte_follows _ h) fun _ _ => countDown_sameOutput
  | succ n ih => exact follows_bind (putByte_follows _ h) fun _ _ hq => ih _ (countDown_sameOutput hq)

theorem holdTop_follows {p p' : EncPort} (h : SameOutput p p') : Follows (holdTop site p) (holdTop site' p') := by
  have hhold := h.update (fun e => { e with csize := e.csize + 1#32, low := BitVec.ofNat 33 (e.low.toNat % 2 ^ 24 * 2 ^ 8) })
    rfl rfl
  simp only [holdTop, h.enc] at hhold ⊢
  split
  · exact follows_error
  · exact follows_ok hhold

theorem shiftLow_follows {p p' : EncPort} (h : SameOutput p p') : Follows (shiftLow site p) (shiftLow site' p') := by
  unfold shiftLow releaseHeld
  rw [h.enc]
  split
  · refine follows_bind (follows_map (putHeld_follows _ _ _ h) fun _ _ hq => ?_) fun _ _ => holdTop_follows
    exact hq.update (fun e => { e with cache := BitVec.ofNat 8 (e.low.toNat / 2 ^ 24) }) rfl rfl
  · exact holdTop_follows h

theorem encRenorm_follows (n : Nat) {p p' : EncPort} (h : SameOutput p p') :
    Follows (encRenorm site n p) (encRenorm site' n p') := by
  induction n generalizing p p' with
  | zero => exact follows_ok h
  | succ n ih =>
    have hshift := h.update (fun e => { e with range := e.range <<< 8 }) rfl rfl
    simp only [encRenorm, h.enc] at hshift ⊢
    split
    · exact follows_bind (shiftLow_follows hshift) fun _ _ => ih
    · exact follows_ok h

theorem encNarrow_sameOutput (cum fr : Nat) {p p' : EncPort} (h : SameOutput p p') :
    SameOutput (encNarrow cum fr p) (encNarrow cum fr p') :=
  h.update (fun e => { e with low := BitVec.ofNat 33 (e.low.toNat + u32 e.range / 2 ^ 15 * cum),
                              range := BitVec.ofNat 32 (u32 e.range / 2 ^ 15 * fr) }) rfl rfl

theorem encodeFn_follows (cum fr : Nat) {p p' : EncPort} (h : SameOutput p p') :
    Follows (encodeFn site cum fr p) (encodeFn site' cum fr p') := by
  have hnarrow := encNarrow_sameOutput cum fr h
  have hbound : encPassBound (encNarrow cum fr p') = encPassBound (encNarrow cum fr p) := by
    rw [encPassBound, hnarrow.enc, encPassBound]
  rw [encodeFn, encodeFn, hbound]
  exact encRenorm_follows _ hnarrow

theorem flushFn_follows {p p' : EncPort} (h : SameOutput p p') : Follows (flushFn site p) (flushFn site' p') :=
  have next := fun _ _ => shiftLow_follows (site := site) (site' := site')
  follows_bind (follows_bind (follows_bind (follows_bind (shiftLow_follows h) next) next) next) next

end

/-! ## The host's commands -/

/-- ENC_SYMB of a symbol completes where encode_fn does (R279). -/
theorem encodeItem_symbol_succeeds {v : State} {b : Bucket} {x : Int} {q : EncPort} (ha : v.enc.state = .active)
    (hx : isSymbol x = true) (h : encodeFn .na (cdfFn x b) (freqFn x b) v.encPort = .ok q) :
    ∃ u, (encodeItem v (.symbol b x)).succeededIn u ∧ u.encPort = q := by
  have hfr := one_le_freqFn b hx
  have harg : s32 (toWord x) = x := s32_toWord_of_symbol hx
  have hexec := exec_encode_of_legal (s := (v.writeArg 0 (toWord x)).accept (encode (.encSymb b))) (i := .encSymb b)
    (.inr ⟨b, rfl, congrArg (cdfFn · b) harg.symm, congrArg (freqFn · b) harg.symm⟩) ha hfr (cdfFn_add_freqFn_le hfr)
  change _ = outcomeOf _ _ (encodeFn .na (cdfFn x b) (freqFn x b) v.encPort) at hexec
  rw [h] at hexec
  exact ⟨_, ⟨hexec, rfl⟩, rfl⟩

/-- ENC_FLUSH completes where flush_fn does (R281). -/
theorem encFlush_succeeds {v : State} {q : EncPort} (ha : v.enc.state = .active) (h : flushFn .na v.encPort = .ok q) :
    ∃ u, (v.issue .encFlush).succeededIn u ∧ u.encPort = { q with enc := { q.enc with state := .flushed } } := by
  have hexec := exec_encFlush_of_active (s := v.accept (encode .encFlush)) ha
  change _ = outcomeOf _ _ (flushFn .na v.encPort) at hexec
  rw [h] at hexec
  exact ⟨_, ⟨hexec, rfl⟩, rfl⟩

theorem encodesTo_append {items items' : List CodeItem} {s u t : State} (h : encodesTo s u items)
    (k : encodesTo u t items') : encodesTo s t (items ++ items') := by
  induction items generalizing s with
  | nil =>
    cases h
    exact k
  | cons i rest ih =>
    obtain ⟨w, hw, hrest⟩ := h
    exact ⟨w, hw, ih hrest⟩

end Machine
end Sys2Proof
end

section
/-! SUPPORT. Phase 2 of COMPRESS (45_block.md R361, R364, R368): it encodes the symbols that scratch holds as the host's ENC_SYMB would,
each in the bucket of its channel's estimate, and a symbol moves the encoder by at most two bytes (43_range_coder.md R273). -/

namespace Sys2Proof
namespace Machine

/-! ## Symbols of an encoding on the way -/

/-- From p0 to p the encoder took the items, as the host's commands do from the state v, and moved by at most two bytes for each. -/
structure Coded (v : State) (p0 : EncPort) (items : List CodeItem) (p : EncPort) : Prop where
  runs : EncRuns p0 p
  host : ∃ u, encodesTo v u items ∧ SameOutput p u.encPort
  least : p0.frontier ≤ p.frontier
  most : p.frontier ≤ p0.frontier + 2 * items.length

section
variable {v : State} {p0 p : EncPort} {items : List CodeItem} (h : Coded v p0 items p)
include h

theorem Coded.symbol {site : Site} {b : Bucket} {x : Int} {q : EncPort} (hx : isSymbol x = true)
    (hq : encodeFn site (cdfFn x b) (freqFn x b) p = .ok q) : Coded v p0 (items ++ [.symbol b x]) q := by
  have hfr := one_le_freqFn b hx
  have hin := cdfFn_add_freqFn_le hfr
  obtain ⟨k, hk, -, -, -, -, hcount, -⟩ := encodeFn_value h.runs.opened h.runs.wide hfr hin hq
  obtain ⟨u, hu, hsame⟩ := h.host
  obtain ⟨q', hq', hqq'⟩ := encodeFn_follows (site' := .na) _ _ hsame q hq
  have hactive : u.enc.state = .active := (congrArg (·.state) hsame.enc).trans h.runs.active
  obtain ⟨w, hw, rfl⟩ := encodeItem_symbol_succeeds hactive hx hq'
  have hleast := h.least
  have hmost := h.most
  refine ⟨(ends_iff.1 (encodeFn_runs h.runs hfr hin)).1 q hq, ⟨w, encodesTo_append hu ⟨w, hw, rfl⟩, hqq'⟩, ?_, ?_⟩
  · simp only [EncPort.frontier] at *
    omega
  · simp only [EncPort.frontier, List.length_append, List.length_singleton] at *
    omega

variable (hptrs : p0.enc.PtrsInside p0.buf.size) (hmax : p0.buf.size ≤ Config.bufSizeMax)
include hptrs

/-- Addresses outside the output region keep their bytes. -/
theorem Coded.byte_outside {b : Nat} (hb : b < u32 p0.enc.outPtr ∨ u32 p0.enc.outEnd ≤ b) : p.buf.byte b = p0.buf.byte b := by
  obtain ⟨-, hend, -⟩ := encGrows_ptrsInside h.runs.grows hptrs
  rw [h.runs.grows.stop] at hend
  exact h.runs.grows.outside b (hb.imp id hend.trans)

include hmax

/-- A symbol completes while four bytes and two for every symbol before it fit. -/
theorem Coded.encodes_of_room {site : Site} {b : Bucket} {x : Int} (hx : isSymbol x = true)
    (hroom : p0.frontier + 2 * items.length ≤ u32 p0.enc.outEnd) :
    ∃ q, encodeFn site (cdfFn x b) (freqFn x b) p = .ok q := by
  have hfr := one_le_freqFn b hx
  have hmost := h.most
  have hstop := h.runs.grows.stop
  have hsize := h.runs.grows.size
  obtain ⟨-, -, hend⟩ := hptrs
  simp only [EncPort.frontier, Config.bufSizeMax] at hmost hroom hmax
  exact encodeFn_of_room h.runs.opened h.runs.wide hfr (cdfFn_add_freqFn_le hfr) (by rw [hstop]; omega)
    (by rw [hstop, hsize]; exact hend) (by omega)

end

/-! ## One symbol and one sample -/

/-- The four symbols of a sample, as one chain of encodings (R361). -/
theorem encodeSample_eq (ka i : Nat) (var : Quad Word) (p : EncPort) :
    encodeSample ka i var p
      = (encodeChannel ka i 0 var p).bind fun r0 => (encodeChannel ka i 1 r0.1 r0.2).bind fun r1 =>
        (encodeChannel ka i 2 r1.1 r1.2).bind fun r2 => encodeChannel ka i 3 r2.1 r2.2 := rfl

section
variable {v : State} {p0 : EncPort} {ka n : Nat} (hptrs : p0.enc.PtrsInside p0.buf.size) (hmax : p0.buf.size ≤ Config.bufSizeMax)
  (hsep : ∀ b, ka ≤ b → b < ka + 4 * n → b < u32 p0.enc.outPtr ∨ u32 p0.enc.outEnd ≤ b)
include hptrs hmax hsep

theorem encodeChannel_endsAt {items : List CodeItem} {p : EncPort} {i : Nat} {c : Fin 4} {var : Quad Word} {x : Int}
    (h : Coded v p0 items p) (hi : i < n) (hlen : items.length < 4 * n) (hx : p0.buf.symbol ka i c = x) :
    EndsAt (fun r => r.1 = var.set c (updateVar (var.get c) x) ∧
        Coded v p0 (items ++ [.symbol (classifyFn (var.get c)) x]) r.2)
      (fun _ _ _ => u32 p0.enc.outEnd < p0.frontier + 8 * n) (encodeChannel ka i c var p) := by
  have hkept : p.buf.byte (ka + 4 * i + c.val) = p0.buf.byte (ka + 4 * i + c.val) :=
    h.byte_outside hptrs (hsep _ (by omega) (by omega))
  have hsym : s8 (p.buf.byte (ka + 4 * i + c.val)) = x := by
    rw [hkept]
    exact hx
  refine endsAt_bind (P := fun byte => s8 byte = x) (endsAt_of_ends (ends_orNoByte fun byte hbyte => ?_)) ?_
  · rw [(load_eq_some hbyte).2, hsym]
  · rintro byte rfl
    have hlegal := isSymbol_s8 byte
    refine endsAt_bind (P := fun q => Coded v p0 (items ++ [.symbol (classifyFn (var.get c)) (s8 byte)]) q)
      ⟨fun q hq => h.symbol hlegal hq, fun e site q hq => ?_⟩ fun q hq => endsAt_ok ⟨rfl, hq⟩
    by_contra hroom
    obtain ⟨q', hq'⟩ := h.encodes_of_room (site := .ofSymbol i c) (b := classifyFn (var.get c)) hptrs hmax hlegal (by omega)
    cases hq.symm.trans hq'

/-- Channel c of a sample, after the first c symbols of q: the channel's estimate is still the one from before the sample. -/
theorem encodeChannel_ofSample {items : List CodeItem} {p : EncPort} {i : Nat} {var0 var : Quad Word} {q : Quad Int} (c : Fin 4)
    (hi : i < n) (hlen : items.length + 4 ≤ 4 * n) (hq : ∀ c, p0.buf.symbol ka i c = q.get c) (hvar : var.get c = var0.get c)
    (h : Coded v p0 (items ++ (sampleItems var0 q).take c.val) p) :
    EndsAt (fun r => r.1 = var.set c (updateVar (var0.get c) (q.get c)) ∧
        Coded v p0 (items ++ (sampleItems var0 q).take (c.val + 1)) r.2)
      (fun _ _ _ => u32 p0.enc.outEnd < p0.frontier + 8 * n) (encodeChannel ka i c var p) := by
  have htake : (sampleItems var0 q).take (c.val + 1)
      = (sampleItems var0 q).take c.val ++ [.symbol (classifyFn (var0.get c)) (q.get c)] := by
    fin_cases c <;> rfl
  have hbefore : ((sampleItems var0 q).take c.val).length ≤ c.val := List.length_take_le _ _
  have hends := encodeChannel_endsAt (var := var) hptrs hmax hsep h hi (by rw [List.length_append]; omega) (hq c)
  rwa [hvar, List.append_assoc, ← htake] at hends

/-- The four symbols of a sample (R361). -/
theorem encodeSample_endsAt {items : List CodeItem} {p : EncPort} {i : Nat} {var : Quad Word} {q : Quad Int} (hi : i < n)
    (hlen : items.length + 4 ≤ 4 * n) (hq : ∀ c, p0.buf.symbol ka i c = q.get c) (h : Coded v p0 items p) :
    EndsAt (fun r => r.1 = updateVars var q ∧ Coded v p0 (items ++ sampleItems var q) r.2)
      (fun _ _ _ => u32 p0.enc.outEnd < p0.frontier + 8 * n) (encodeSample ka i var p) := by
  rw [encodeSample_eq]
  refine endsAt_bind (encodeChannel_ofSample hptrs hmax hsep 0 hi hlen hq rfl (items.append_nil.symm ▸ h)) ?_
  rintro r0 ⟨hvar0, h0⟩
  refine endsAt_bind (encodeChannel_ofSample hptrs hmax hsep 1 hi hlen hq (by rw [hvar0]; rfl) h0) ?_
  rintro r1 ⟨hvar1, h1⟩
  refine endsAt_bind (encodeChannel_ofSample hptrs hmax hsep 2 hi hlen hq (by rw [hvar1, hvar0]; rfl) h1) ?_
  rintro r2 ⟨hvar2, h2⟩
  refine endsAt_mono (encodeChannel_ofSample hptrs hmax hsep 3 hi hlen hq (by rw [hvar2, hvar1, hvar0]; rfl) h2) ?_
    fun _ _ _ => id
  rintro r3 ⟨hvar3, h3⟩
  exact ⟨by rw [hvar3, hvar2, hvar1, hvar0]; rfl, h3⟩

/-- The symbols of a block from sample i on (R364). -/
theorem encodeSamples_endsAt {items : List CodeItem} {p : EncPort} {f i : Nat} {w : Predictor} {qs : List (Quad Int)}
    (hi : i + qs.length ≤ n) (hlen : items.length + 4 * qs.length ≤ 4 * n)
    (hqs : ∀ (j : Nat) (q : Quad Int), qs[j]? = some q → ∀ c, p0.buf.symbol ka (i + j) c = q.get c) (h : Coded v p0 items p) :
    EndsAt (fun r => r.1 = (stepsWith f w qs).var ∧ Coded v p0 (items ++ blockItems f w qs) r.2)
      (fun _ _ _ => u32 p0.enc.outEnd < p0.frontier + 8 * n) (encodeSamples ka qs.length i w.var p) := by
  induction qs generalizing items i w p with
  | nil => exact endsAt_ok ⟨rfl, items.append_nil.symm ▸ h⟩
  | cons q qs ih =>
    rw [List.length_cons] at hi hlen
    have hitems : (items ++ sampleItems w.var q).length = items.length + 4 := List.length_append
    refine endsAt_bind (encodeSample_endsAt hptrs hmax hsep (by omega) (by omega) (hqs 0 q rfl) h) ?_
    rintro ⟨_, p'⟩ ⟨rfl, hp'⟩
    have hrest := ih (i := i + 1) (w := stepWith f w q) (by omega) (by omega)
      (fun j q' hj c => by rw [Nat.add_right_comm]; exact hqs (j + 1) q' hj c) hp'
    rwa [List.append_assoc] at hrest

end

/-! ## Phase 2 whole -/

/-- What phase 2 leaves (R361, R366 to R368): the header F at oa, then the bytes that the host's ENC_SYMB of the items and ENC_FLUSH
write from the state v, and every other byte of m. -/
structure Emitted (v : State) (items : List CodeItem) (f oa oc : Nat) (m : Buf) (q : EncPort) : Prop where
  state : q.enc.state = .flushed
  base : u32 q.enc.outBase = oa + 1
  stop : u32 q.enc.outEnd = oa + oc
  least : oa + 6 ≤ u32 q.enc.outPtr
  most : u32 q.enc.outPtr ≤ oa + 6 + 2 * items.length
  header : q.buf.byte oa = BitVec.ofNat 8 f
  host : ∃ u t, encodesTo v u items ∧ (u.issue .encFlush).succeededIn t ∧ SameOutput q t.encPort
  frame : ∀ b, outside b oa (u32 q.enc.outPtr - oa) → q.buf.byte b = m.byte b

theorem encoderStart_regs {oa oc size : Nat} (hoa : oa + oc ≤ size) (hoc : 1 ≤ oc) (hmax : size ≤ Config.bufSizeMax) :
    u32 (encoderStart (oa + 1) (oa + oc)).outBase = oa + 1 ∧ u32 (encoderStart (oa + 1) (oa + oc)).outPtr = oa + 1 ∧
      u32 (encoderStart (oa + 1) (oa + oc)).outEnd = oa + oc ∧ u32 (encoderStart (oa + 1) (oa + oc)).csize = 1 := by
  simp only [Config.bufSizeMax] at hmax
  exact ⟨u32_ofNat (by omega), u32_ofNat (by omega), u32_ofNat (by omega), rfl⟩

/-- flush_fn after the items, in a region with room for it (R280, R281). -/
theorem Coded.flush {v : State} {f oa oc : Nat} {m m1 : Buf} {items : List CodeItem} {p : EncPort}
    (h : Coded v ⟨encoderStart (oa + 1) (oa + oc), m1⟩ items p) (hoa : oa + oc ≤ m.size) (hmax : m.size ≤ Config.bufSizeMax)
    (hroom : 6 + 2 * items.length ≤ oc) (hheader : m.store oa (BitVec.ofNat 8 f) = some m1) :
    ∃ q, flushFn .na p = .ok q ∧ Emitted v items f oa oc m { q with enc := { q.enc with state := .flushed } } := by
  obtain ⟨hbase, hptr, hend, hcsize⟩ := encoderStart_regs hoa (by omega) hmax
  have hgrows := h.runs.grows
  have hstop : u32 p.enc.outEnd = oa + oc := (congrArg u32 hgrows.stop).trans hend
  have hsize : p.buf.size = m.size := hgrows.size.trans (store_size hheader)
  have hleast := h.least
  have hmost := h.most
  simp only [EncPort.frontier, hptr, hcsize] at hleast hmost
  have hwide : 0 < u32 p.enc.range := (by decide : 0 < Config.rcTop).trans_le h.runs.wide
  simp only [Config.bufSizeMax] at hmax
  obtain ⟨q, hq⟩ := flushFn_of_room (site := .na) h.runs.opened hwide (by omega) (by omega) (by omega)
  obtain ⟨-, hqptr, -, -, -, -, -, hqbase, hqstop⟩ := flushFn_value h.runs.opened hwide hq
  have hall := (encGrows_trans hgrows (flushFn_grows hq)).outside
  obtain ⟨u, hu, hsame⟩ := h.host
  obtain ⟨q', hq', hqq'⟩ := flushFn_follows (site' := .na) hsame q hq
  obtain ⟨t, ht, hport⟩ := encFlush_succeeds ((congrArg (·.state) hsame.enc).trans h.runs.active) hq'
  refine ⟨q, hq, rfl, ?_, ?_, ?_, ?_, ?_, ⟨u, t, hu, ht, ?_⟩, fun b hb => ?_⟩
  · exact (congrArg u32 (hqbase.trans hgrows.base)).trans hbase
  · exact (congrArg u32 hqstop).trans hstop
  · exact hqptr.symm ▸ hleast
  · exact hqptr.symm ▸ hmost
  · exact (hall oa (.inl (by rw [hptr]; omega))).trans (store_byte_same hheader)
  · exact hport ▸ hqq'.update (fun e => { e with state := .flushed }) rfl rfl
  · simp only [outside] at hb
    rw [← store_byte_ne hheader (by omega : b ≠ oa)]
    exact hall b (by rw [hptr]; omega)

/-- Phase 2 after the header's store (R361). -/
theorem entropyCode_eq {f ka n oa oc : Nat} {var : Quad Word} {e : Encoder} {m m1 : Buf} (hoc : 1 ≤ oc)
    (hheader : m.store oa (BitVec.ofNat 8 f) = some m1) :
    entropyCode f ka n oa oc var ⟨e, m⟩
      = (encodeSamples ka n 0 var ⟨encoderStart (oa + 1) (oa + oc), m1⟩).bind fun r => (flushFn .na r.2).bind fun q =>
          .ok (r.1, { q with enc := { q.enc with state := .flushed } }) := by
  simp only [entropyCode, hheader, if_neg (Nat.not_lt.2 hoc)]
  rfl

/-- With 6 + 8n bytes of output, phase 2 completes (R361, R369). -/
theorem entropyCode_of_room {v : State} {e : Encoder} {f ka oa oc : Nat} {w : Predictor} {m : Buf} {qs : List (Quad Int)}
    (hoa : oa + oc ≤ m.size) (hka : ka + 4 * qs.length ≤ m.size) (hmax : m.size ≤ Config.bufSizeMax)
    (hroom : 6 + 8 * qs.length ≤ oc) (hsep : ∀ b, ka ≤ b → b < ka + 4 * qs.length → outside b oa oc)
    (hqs : ∀ (j : Nat) (q : Quad Int), qs[j]? = some q → ∀ c, m.symbol ka j c = q.get c)
    (hv : v.enc = encoderStart (oa + 1) (oa + oc)) (hvsize : v.buf.size = m.size) :
    ∃ q, entropyCode f ka qs.length oa oc w.var ⟨e, m⟩ = .ok ((stepsWith f w qs).var, q) ∧
      Emitted v (blockItems f w qs) f oa oc m q := by
  obtain ⟨hbase, hptr, hend, hcsize⟩ := encoderStart_regs hoa (by omega) hmax
  obtain ⟨m1, hheader⟩ : ∃ m1, m.store oa (BitVec.ofNat 8 f) = some m1 := ⟨_, store_of_lt _ (by omega)⟩
  have hsize := store_size hheader
  have hptrs : (encoderStart (oa + 1) (oa + oc)).PtrsInside m1.size :=
    hsize ▸ encoderStart_ptrsInside (by omega) hoa hmax
  have hstart : Coded v ⟨encoderStart (oa + 1) (oa + oc), m1⟩ [] ⟨encoderStart (oa + 1) (oa + oc), m1⟩ :=
    ⟨encRuns_encoderStart _ _ _, ⟨v, rfl, hv, hvsize.trans hsize.symm, fun b h1 h2 => by
      simp only [hbase, hptr] at h1 h2
      omega⟩, Nat.le_refl _, Nat.le_refl _⟩
  have houtput : ∀ b, ka ≤ b → b < ka + 4 * qs.length → b < oa ∨ oa + oc ≤ b := hsep
  have hends := encodeSamples_endsAt (f := f) (i := 0) (w := w) hptrs (hsize ▸ hmax)
    (fun b h1 h2 => by rw [hptr, hend]; exact (houtput b h1 h2).imp (·.trans (Nat.lt_succ_self oa)) id) (Nat.zero_add _).le
    (Nat.zero_add _).le (fun j q hj c => ?_) hstart
  · have hinside := encodeSamples_insideBuf (v0 := w.var) (n := qs.length) hptrs.2.2 (hsize ▸ hka) (Nat.zero_add _).le
      ⟨hstart.runs, id⟩
    rw [entropyCode_eq (by omega) hheader]
    cases hloop : encodeSamples ka qs.length 0 w.var ⟨encoderStart (oa + 1) (oa + oc), m1⟩ with
    | error stop =>
      rcases stop with ⟨c, site, p⟩ | a
      · have hfull := hends.raised _ _ _ hloop
        simp only [EncPort.frontier, hptr, hend, hcsize] at hfull
        omega
      · exact absurd hloop (hinside a)
    | ok r =>
      obtain ⟨hvar, hcoded⟩ := hends.ok r hloop
      obtain ⟨q, hq, hemitted⟩ := hcoded.flush hoa hmax
        (by rw [List.nil_append, blockItems_length]; omega) hheader
      refine ⟨_, ?_, hemitted⟩
      simp only [Except.bind, hq, hvar]
  · have hj' := (List.getElem?_eq_some_iff.1 hj).1
    rw [← hqs j q hj c, Nat.zero_add, Buf.symbol, Buf.symbol]
    have := houtput (ka + 4 * j + c.val) (by omega) (by omega)
    rw [store_byte_ne hheader (by omega)]

end Machine
end Sys2Proof
end

section
/-! SUPPORT. Phase 1 of COMPRESS (45_block.md R361, R362): it stores the symbols of `blockSymbols`, one byte each, or one of the block's
symbols overflows. The working copy's estimates wait for phase 2, and the predictions do not rest on them. -/

namespace Sys2Proof
namespace Machine

/-! ## The symbols of a sample -/

theorem symbolsOf_eq_some {f : Nat} {w : Predictor} {a : Quad Int}
    (h : ∀ c, quantOverflows (a.get c) (w.prediction.get c) f = false) :
    symbolsOf f w a = some ⟨quantFn a.c0 w.prediction.c0 f, quantFn a.c1 w.prediction.c1 f, quantFn a.c2 w.prediction.c2 f,
      quantFn a.c3 w.prediction.c3 f⟩ := if_pos (firstChannel_eq_none h)

theorem firstChannel_ne_none {bad : Fin 4 → Bool} {c : Fin 4} (h : bad c = true) : firstChannel bad ≠ none := by
  fin_cases c <;> grind [firstChannel]

theorem symbolsOf_eq_none {f : Nat} {w : Predictor} {a : Quad Int} {c : Fin 4}
    (h : quantOverflows (a.get c) (w.prediction.get c) f = true) : symbolsOf f w a = none :=
  if_neg (firstChannel_ne_none h)

/-! ## Reading a sample -/

theorem readSample_of_le {sa i : Nat} {m : Buf} (h : sa + 16 * i + 16 ≤ m.size) : readSample sa i m = .ok (m.sample sa i) := by
  have component : ∀ c : Fin 4, sampleComponent sa i c m = .ok (m.component sa i c) := fun c => by
    rw [sampleComponent, memRead_of_le (by omega)]
    rfl
  simp only [readSample, component]
  rfl

theorem samples_congr {sa n i : Nat} {m m' : Buf} (h : ∀ b, sa + 16 * i ≤ b → b < sa + 16 * (i + n) → m'.byte b = m.byte b) :
    m'.samples sa n i = m.samples sa n i := by
  induction n generalizing i with
  | zero => rfl
  | succ n ih =>
    rw [Buf.samples, Buf.samples, sample_congr fun b h1 h2 => h b h1 (by omega), ih fun b h1 h2 => h b (by omega) (by omega)]

/-! ## The scratch bytes -/

/-- A symbol reads back from its scratch byte (R87). -/
theorem s8_ofInt_of_symbol {q : Int} (h : isSymbol q = true) : s8 (BitVec.ofInt 8 q) = q := by
  obtain ⟨hlow, hhigh⟩ := isSymbol_iff.1 h
  exact BitVec.toInt_ofInt_eq_self (by decide) hlow (by omega)

/-- From m to m' the symbols of the samples from i on were stored in scratch, and nothing else (R87, R361). -/
structure SymbolsStored (ka i : Nat) (qs : List (Quad Int)) (m m' : Buf) : Prop where
  size : m'.size = m.size
  symbols : ∀ (j : Nat) (q : Quad Int), qs[j]? = some q → ∀ c, m'.symbol ka (i + j) c = q.get c
  frame : ∀ b, outside b (ka + 4 * i) (4 * qs.length) → m'.byte b = m.byte b

theorem symbolsStored_nil (ka i : Nat) (m : Buf) : SymbolsStored ka i [] m m := ⟨rfl, by simp, fun _ _ => rfl⟩

theorem symbolsStored_cons {ka i : Nat} {q : Quad Int} {qs : List (Quad Int)} {m m' m'' : Buf}
    (h : SymbolsStored ka i [q] m m') (k : SymbolsStored ka (i + 1) qs m' m'') : SymbolsStored ka i (q :: qs) m m'' where
  size := k.size.trans h.size
  symbols j r hj c := by
    cases j with
    | zero =>
      rw [Nat.add_zero, Buf.symbol, k.frame _ (.inl (by omega))]
      exact h.symbols 0 r hj c
    | succ j =>
      rw [← Nat.add_assoc, Nat.add_right_comm]
      exact k.symbols j r hj c
  frame b hb := by
    have hlen := List.length_cons (a := q) (as := qs)
    simp only [outside] at hb
    rw [k.frame b (by simp only [outside]; omega), h.frame b (by simp only [outside, List.length_singleton]; omega)]

/-- From m to m' the symbol (i, c) was stored in scratch, and nothing else. -/
structure SymbolStored (ka i : Nat) (c : Fin 4) (x : Int) (m m' : Buf) : Prop where
  size : m'.size = m.size
  value : m'.symbol ka i c = x
  frame : ∀ b, b ≠ ka + 4 * i + c.val → m'.byte b = m.byte b

theorem SymbolStored.other {ka i : Nat} {c d : Fin 4} {x : Int} {m m' : Buf} (h : SymbolStored ka i c x m m') (hd : d ≠ c) :
    m'.symbol ka i d = m.symbol ka i d := by
  have hval : d.val ≠ c.val := fun he => hd (Fin.ext he)
  rw [Buf.symbol, h.frame _ (by omega), Buf.symbol]

/-- Four symbols make a sample's. -/
theorem symbolsStored_of_four {ka i : Nat} {q : Quad Int} {m m0 m1 m2 m3 : Buf} (h0 : SymbolStored ka i 0 q.c0 m m0)
    (h1 : SymbolStored ka i 1 q.c1 m0 m1) (h2 : SymbolStored ka i 2 q.c2 m1 m2) (h3 : SymbolStored ka i 3 q.c3 m2 m3) :
    SymbolsStored ka i [q] m m3 where
  size := h3.size.trans (h2.size.trans (h1.size.trans h0.size))
  symbols j r hj c := by
    obtain ⟨rfl, rfl⟩ : j = 0 ∧ r = q := by
      cases j <;> simp_all
    rw [Nat.add_zero]
    fin_cases c
    · exact (h3.other (by decide)).trans ((h2.other (by decide)).trans ((h1.other (by decide)).trans h0.value))
    · exact (h3.other (by decide)).trans ((h2.other (by decide)).trans h1.value)
    · exact (h3.other (by decide)).trans h2.value
    · exact h3.value
  frame b hb := by
    have ne : ∀ c : Fin 4, b ≠ ka + 4 * i + c.val := fun c => by
      simp only [outside, List.length_singleton] at hb
      omega
    rw [h3.frame b (ne 3), h2.frame b (ne 2), h1.frame b (ne 1), h0.frame b (ne 0)]

/-! ## Phase 1 -/

/-- One channel of phase 1: the symbol is stored, or it overflows and nothing is (R361, R363). -/
theorem quantChannel_endsAt (f ka i : Nat) (c : Fin 4) (a pr : Int) (m : Buf) :
    EndsAt (fun r => quantOverflows a pr f = false ∧ r.1 = dequantFn pr (quantFn a pr f) f ∧
        SymbolStored ka i c (quantFn a pr f) m r.2)
      (fun _ _ _ => quantOverflows a pr f = true) (quantChannel f ka i c a pr m) := by
  simp only [quantChannel]
  split
  · exact ⟨fun _ h => (by cases h), fun _ _ _ _ => ‹_›⟩
  · have hfits : quantOverflows a pr f = false := Bool.not_eq_true _ ▸ ‹_›
    refine endsAt_of_ends (ends_map (ends_orNoByte fun m' hm => hm) fun m' hm =>
      ⟨hfits, rfl, store_size hm, ?_, fun b hb => store_byte_ne hm hb⟩)
    rw [Buf.symbol, store_byte_same hm, s8_ofInt_of_symbol]
    simpa [quantOverflows] using hfits

/-- Phase 1 for a sample, as one chain of quantizations (R361). -/
theorem quantSample_eq {f sa ka i : Nat} {w : Predictor} {m : Buf} (h : sa + 16 * i + 16 ≤ m.size) :
    quantSample f sa ka i w m
      = (quantChannel f ka i 0 (m.sample sa i).c0 w.prediction.c0 m).bind fun r0 =>
        (quantChannel f ka i 1 (m.sample sa i).c1 w.prediction.c1 r0.2).bind fun r1 =>
        (quantChannel f ka i 2 (m.sample sa i).c2 w.prediction.c2 r1.2).bind fun r2 =>
        (quantChannel f ka i 3 (m.sample sa i).c3 w.prediction.c3 r2.2).bind fun r3 =>
        .ok (w.advance ⟨r0.1, r1.1, r2.1, r3.1⟩, r3.2) := by
  simp only [quantSample, readSample_of_le h]
  rfl

theorem quantSample_endsAt {f sa ka i : Nat} {w : Predictor} {m : Buf} (h : sa + 16 * i + 16 ≤ m.size) :
    EndsAt (fun r => ∃ q, symbolsOf f w (m.sample sa i) = some q ∧ r.1 = w.advance (reconstruct f w q) ∧
        SymbolsStored ka i [q] m r.2)
      (fun _ _ _ => symbolsOf f w (m.sample sa i) = none) (quantSample f sa ka i w m) := by
  have overflow : ∀ (c : Fin 4), quantOverflows ((m.sample sa i).get c) (w.prediction.get c) f = true →
      symbolsOf f w (m.sample sa i) = none := fun c => symbolsOf_eq_none
  rw [quantSample_eq h]
  refine endsAt_bind (endsAt_mono (quantChannel_endsAt ..) (fun _ h => h) fun _ _ _ => overflow 0) fun r0 ⟨f0, v0, s0⟩ => ?_
  refine endsAt_bind (endsAt_mono (quantChannel_endsAt ..) (fun _ h => h) fun _ _ _ => overflow 1) fun r1 ⟨f1, v1, s1⟩ => ?_
  refine endsAt_bind (endsAt_mono (quantChannel_endsAt ..) (fun _ h => h) fun _ _ _ => overflow 2) fun r2 ⟨f2, v2, s2⟩ => ?_
  refine endsAt_bind (endsAt_mono (quantChannel_endsAt ..) (fun _ h => h) fun _ _ _ => overflow 3) fun r3 ⟨f3, v3, s3⟩ => ?_
  refine endsAt_ok ⟨_, symbolsOf_eq_some fun c => ?_, ?_, symbolsStored_of_four s0 s1 s2 s3⟩
  · fin_cases c
    · exact f0
    · exact f1
    · exact f2
    · exact f3
  · rw [v0, v1, v2, v3]
    rfl

/-- Phase 1 for the samples from i on, whatever the estimates: it stores the block's symbols, or one of them overflows. -/
theorem quantSamples_endsAt {f sa ka n left i : Nat} {w : Predictor} {var : Quad Word} {m : Buf} (hi : i + left ≤ n)
    (hsa : sa + 16 * n ≤ m.size) (hsep : ∀ b, sa ≤ b → b < sa + 16 * n → outside b ka (4 * n)) :
    EndsAt (fun r => ∃ qs, blockSymbols f w (m.samples sa left i) = some qs ∧ r.1 = { stepsWith f w qs with var := var } ∧
        SymbolsStored ka i qs m r.2)
      (fun _ _ _ => blockSymbols f w (m.samples sa left i) = none) (quantSamples f sa ka left i { w with var := var } m) := by
  induction left generalizing i w m with
  | zero => exact endsAt_ok ⟨[], rfl, rfl, symbolsStored_nil ..⟩
  | succ left ih =>
    refine endsAt_bind (endsAt_mono (quantSample_endsAt (by omega)) (fun _ h => h) ?_) ?_
    · intro _ _ _ hnone
      have hnone : symbolsOf f w (m.sample sa i) = none := hnone
      rw [Buf.samples, blockSymbols, hnone]
      rfl
    · rintro ⟨_, m'⟩ ⟨q, hq, rfl, hstored⟩
      have hq : symbolsOf f w (m.sample sa i) = some q := hq
      have hlater : m'.samples sa left (i + 1) = m.samples sa left (i + 1) := samples_congr fun b h1 h2 => by
        have hout := hsep b (by omega) (by omega)
        simp only [outside] at hout
        exact hstored.frame b (by simp only [outside, List.length_singleton]; omega)
      have hblock : blockSymbols f w (m.samples sa (left + 1) i)
          = (blockSymbols f (stepWith f w q) (m'.samples sa left (i + 1))).map (q :: ·) := by
        rw [Buf.samples, blockSymbols, hq, hlater]
        rfl
      rw [hblock]
      refine endsAt_mono (ih (w := stepWith f w q) (by omega) (hstored.size ▸ hsa)) ?_ ?_
      · rintro r ⟨qs, hqs, hw, hrest⟩
        exact ⟨q :: qs, by rw [hqs]; rfl, hw, symbolsStored_cons hstored hrest⟩
      · intro _ _ _ hnone
        rw [hnone]
        rfl

end Machine
end Sys2Proof
end

section
/-! SUPPORT. A COMPRESS whose symbols fit and whose regions suffice (45_block.md R361, R366 to R369): phase 1 stores the block's symbols,
phase 2 completes in 6 + 8n bytes, and the working copy that is committed is the one that the symbols lead to. -/

namespace Sys2Proof
namespace Machine

/-- The region check of R360, and the scratch that 4n symbols need. -/
theorem regionCheck_compress {s : State} (h : compressChecked s) : regionCheck s.buf.size s.compressRegions = true := by
  obtain ⟨hsamples, hout, hscratch, hso, hsk, hok⟩ := h
  have disjoint : ∀ {r t : Region}, ¬overlap r.addr r.len t.addr t.len → r.overlaps t = false := fun h => by
    rw [← Bool.not_eq_true, overlaps_eq_true_iff]
    exact h
  have hso' : Region.overlaps ⟨s.argU 0, 16 * s.argU 1⟩ ⟨s.argU 2, s.argU 3⟩ = false := disjoint hso
  have hsk' : Region.overlaps ⟨s.argU 0, 16 * s.argU 1⟩ ⟨s.argU 4, s.argU 5⟩ = false := disjoint hsk
  have hok' : Region.overlaps ⟨s.argU 2, s.argU 3⟩ ⟨s.argU 4, s.argU 5⟩ = false := disjoint hok
  simp [regionCheck, disjointRegions, Region.inBuf, State.compressRegions, hsamples, hout, hscratch, hso', hsk', hok']

/-- Addresses in one of two regions that do not overlap are outside the other (R360). -/
theorem outside_of_not_overlap {a l b k x : Nat} (h : ¬overlap a l b k) (h1 : a ≤ x) (h2 : x < a + l) : outside x b k := by
  simp only [overlap, outside] at *
  omega

theorem blockSymbols_length {f : Nat} {w : Predictor} {as qs : List (Quad Int)} (h : blockSymbols f w as = some qs) :
    qs.length = as.length := by
  induction as generalizing w qs with
  | nil =>
    cases h
    rfl
  | cons a as ih =>
    obtain ⟨q, -, h⟩ := Option.bind_eq_some_iff.1 h
    obtain ⟨rest, hrest, rfl⟩ := Option.map_eq_some_iff.1 h
    exact congrArg (· + 1) (ih hrest)

theorem samples_length (m : Buf) (sa n i : Nat) : (m.samples sa n i).length = n := by
  induction n generalizing i with
  | zero => rfl
  | succ n ih => exact congrArg (· + 1) (ih (i + 1))

/-- Phase 1 of a block whose symbols all fit (R361, R362). -/
theorem quantSamples_of_fits {f sa ka n : Nat} {w : Predictor} {m : Buf} {qs : List (Quad Int)} (hsa : sa + 16 * n ≤ m.size)
    (hka : ka + 4 * n ≤ m.size) (hsep : ∀ b, sa ≤ b → b < sa + 16 * n → outside b ka (4 * n))
    (hqs : blockSymbols f w (m.samples sa n 0) = some qs) :
    ∃ m', quantSamples f sa ka n 0 w m = .ok ({ stepsWith f w qs with var := w.var }, m') ∧ SymbolsStored ka 0 qs m m' := by
  have hends := quantSamples_endsAt (f := f) (left := n) (i := 0) (w := w) (var := w.var) (Nat.zero_add n).le hsa hsep
  have hinside := quantSamples_insideBuf (f := f) (w := w) (Nat.zero_add n).le hsa hka (bufKept_refl m)
  cases hloop : quantSamples f sa ka n 0 w m with
  | error stop =>
    rcases stop with ⟨e, site, p⟩ | a
    · cases (hends.raised _ _ _ hloop).symm.trans hqs
    · exact absurd hloop (hinside a)
  | ok r =>
    obtain ⟨qs', hqs', hw, hstored⟩ := hends.ok r hloop
    obtain rfl : qs' = qs := Option.some.inj (hqs'.symm.trans hqs)
    exact ⟨r.2, congrArg Except.ok (Prod.ext hw rfl), hstored⟩

/-- The two phases in order (R361). -/
theorem compressBody_eq (p : Profile) (s : State) :
    compressBody p s
      = (liftStop (EncPort.mk s.enc)
          (quantSamples (s.profile p) (s.argU 0) (s.argU 4) (s.argU 1) 0 s.pred s.buf)).bind fun r =>
        (entropyCode (s.profile p) (s.argU 4) (s.argU 1) (s.argU 2) (s.argU 3) r.1.var ⟨s.enc, r.2⟩).bind fun r' =>
          .ok ({ r.1 with var := r'.1 }, r'.2) := rfl

section
variable {s : State} (hin : s.argU 2 + s.argU 3 ≤ s.buf.size) (hoc : 1 ≤ s.argU 3)
include hin hoc

/-- ENC_INIT on the output after the header starts the encoder of COMPRESS (R277, R361). -/
theorem encodeInto_afterHeader (hsize : s.buf.size ≤ Config.bufSizeMax) :
    ∃ t, (s.encodeInto (s.argLo.c2 + 1#32) (s.argLo.c3 - 1#32)).succeededIn t ∧
      t.enc = encoderStart (s.argU 2 + 1) (s.argU 2 + s.argU 3) ∧ t.buf = s.buf := by
  simp only [Config.bufSizeMax] at hsize
  have ha : u32 (s.argLo.c2 + 1#32) = s.argU 2 + 1 := u32_add_one (by simp only [State.argU] at *; omega)
  have hl : u32 (s.argLo.c3 - 1#32) = s.argU 3 - 1 := u32_sub_one hoc
  have hregion : u32 (s.argLo.c2 + 1#32) + u32 (s.argLo.c3 - 1#32) = s.argU 2 + s.argU 3 := by omega
  have hexec := exec_encInit_of_le
    (s := ((s.writeArg 0 (s.argLo.c2 + 1#32)).writeArg 1 (s.argLo.c3 - 1#32)).accept (encode .encInit)) (hregion.trans_le hin)
  exact ⟨_, ⟨hexec, rfl⟩, congrArg₂ encoderStart ha hregion, rfl⟩

end

/-- COMPRESS after its checks, where the symbols fit and the output suffices. -/
theorem compressBody_of_room {s v : State} {p : Profile} {qs : List (Quad Int)} (hchecked : compressChecked s)
    (hsize : s.buf.size ≤ Config.bufSizeMax) (hkc : 4 * s.argU 1 ≤ s.argU 5) (hroom : 6 + 8 * s.argU 1 ≤ s.argU 3)
    (hqs : blockSymbols (s.profile p) s.pred (s.buf.samples (s.argU 0) (s.argU 1) 0) = some qs)
    (hv : v.enc = encoderStart (s.argU 2 + 1) (s.argU 2 + s.argU 3)) (hvbuf : v.buf = s.buf) :
    ∃ m q, compressBody p s = .ok (stepsWith (s.profile p) s.pred qs, q) ∧ SymbolsStored (s.argU 4) 0 qs s.buf m ∧
      Emitted v (blockItems (s.profile p) s.pred qs) (s.profile p) (s.argU 2) (s.argU 3) m q := by
  obtain ⟨hsamples, hout, hscratch, -, hsk, hok⟩ := hchecked
  have hlen : qs.length = s.argU 1 := (blockSymbols_length hqs).trans (samples_length ..)
  obtain ⟨m, hquant, hstored⟩ := quantSamples_of_fits (ka := s.argU 4) hsamples (by omega) (fun b h1 h2 => by
    have := outside_of_not_overlap hsk h1 h2
    simp only [outside] at *
    omega) hqs
  have hmsize := hstored.size
  obtain ⟨q, hcode, hemitted⟩ := entropyCode_of_room (v := v) (e := s.enc) (f := s.profile p) (ka := s.argU 4) (oa := s.argU 2)
    (oc := s.argU 3) (w := s.pred) (m := m) (qs := qs) (by omega) (by omega) (by omega) (by omega) (fun b h1 h2 => by
      by_contra hb
      simp only [outside, overlap] at *
      omega) (fun j q hj c => by have := hstored.symbols j q hj c; rwa [Nat.zero_add] at this) hv (by rw [hvbuf, hmsize])
  refine ⟨m, q, ?_, hstored, hemitted⟩
  rw [hlen] at hcode
  rw [compressBody_eq, hquant]
  simp only [liftStop, Except.bind, hcode]

/-- The completion of a COMPRESS that passes its checks (R361). -/
theorem exec_compress_of_body {s : State} {p : Profile} {r : Predictor × EncPort} (hchecked : compressChecked s)
    (hkc : 4 * s.argU 1 ≤ s.argU 5) (hbody : compressBody p s = .ok r) :
    exec (.compress p) s = .next (s.afterCompress r).complete := by
  simp only [exec, execCompress, regionCheck_compress hchecked, if_neg (Nat.not_lt.2 hkc), hbody]
  rfl

/-- RESULT0 of COMPRESS: the bytes from the header to OUT_PTR (R366). -/
theorem compress_count {s : State} {w : Predictor} {q : EncPort} (h : s.argU 2 ≤ u32 q.enc.outPtr) :
    u32 ((s.afterCompress (w, q)).complete).result.c0 = u32 q.enc.outPtr - s.argU 2 := by
  have harg : u32 (BitVec.ofNat 32 (s.argU 2)) = s.argU 2 := u32_ofNat (u32_lt _)
  exact (u32_sub (harg.trans_le h)).trans (congrArg _ harg)

/-- Settles O54: phase 1 stores the symbols, phase 2 follows the host's ENC_INIT, ENC_SYMB and ENC_FLUSH byte for byte, and a symbol
takes at most two bytes, so that 6 + 8n suffice. -/
theorem compressResult : Obligations.CompressResult := by
  intro s p qs hbuf hchecked hkc hroom hqs
  have hsize : s.buf.size ≤ Config.bufSizeMax := hbuf.2.2
  have hlen : qs.length = s.argU 1 := (blockSymbols_length hqs).trans (samples_length ..)
  obtain ⟨e1, hinit, he1, he1buf⟩ := encodeInto_afterHeader hchecked.2.1 (by omega) hsize
  obtain ⟨m, q, hbody, hstored, hemitted⟩ := compressBody_of_room hchecked hsize hkc hroom hqs he1 he1buf
  have hleast := hemitted.least
  have hmost := hemitted.most
  rw [blockItems_length, hlen] at hmost
  obtain ⟨e2, e3, hitems, hflush, hsame⟩ := hemitted.host
  have hcount := compress_count (s := s) (w := stepsWith (s.profile p) s.pred qs) (q := q) (by omega)
  have hframe := hemitted.frame
  rw [← hcount] at hframe
  refine ⟨_, exec_compress_of_body hchecked hkc hbody, rfl, hemitted.state, hemitted.base, hemitted.stop, ?_, ?_, ?_,
    hemitted.header, ⟨e1, e2, e3, hinit, hitems, hflush, hsame.enc.symm, fun k h1 hk => ?_⟩, fun i r hi c => ?_,
    fun b hscratch hout => ?_⟩
  · rw [hcount]
    exact (Nat.add_sub_cancel' ((Nat.le_add_right _ 6).trans hleast)).symm
  · omega
  · omega
  · exact (hsame.bytes _ (by have := hemitted.base; omega) (by omega)).symm
  · have hi' := (List.getElem?_eq_some_iff.1 hi).1
    obtain ⟨-, -, -, -, -, hdisjoint⟩ := hchecked
    have hkept := hframe (s.argU 4 + 4 * i + c.val) (by
      simp only [overlap, outside] at *
      omega)
    have hsymbol := hstored.symbols i r hi c
    rw [Nat.zero_add, Buf.symbol, ← hkept] at hsymbol
    exact hsymbol
  · exact (hframe b hout).trans (hstored.frame b (by rw [hlen]; exact hscratch))

end Machine
end Sys2Proof
end

section
/-! SUPPORT. The checks of the block commands (45_block.md R360, R383), and what COMPRESS can end in: with a failed check it raises at
once, and else it ends as its two phases do. -/

namespace Sys2Proof
namespace Machine

/-! ## The region checks (R360) -/

theorem overlaps_eq_false_iff {r t : Region} : r.overlaps t = false ↔ ¬overlap r.addr r.len t.addr t.len := by
  rw [← overlaps_eq_true_iff, Bool.not_eq_true]

theorem regionCheck_compress_iff {s : State} : regionCheck s.buf.size s.compressRegions = true ↔ compressChecked s := by
  refine ⟨fun h => ?_, regionCheck_compress⟩
  obtain ⟨hsamples, hout, hscratch, hso, hsk, hok⟩ := regionCheck_triple h
  exact ⟨hsamples, hout, hscratch, overlaps_eq_false_iff.1 hso, overlaps_eq_false_iff.1 hsk, overlaps_eq_false_iff.1 hok⟩

theorem regionCheck_decompress_iff {s : State} : regionCheck s.buf.size s.decompressRegions = true ↔ decompressChecked s := by
  refine ⟨fun h => ?_, regionCheck_decompress⟩
  obtain ⟨hin, hsamples, hsep⟩ := regionCheck_pair h
  exact ⟨hin, hsamples, overlaps_eq_false_iff.1 hsep⟩

/-! ## The commands after their checks -/

section
variable {s : State} {p : Profile}

theorem exec_compress_of_not_checked (h : ¬compressChecked s) :
    exec (.compress p) s = .next (s.raiseError .badArgument .na) := if_neg (mt regionCheck_compress_iff.1 h)

theorem exec_compress_of_small_scratch (h : compressChecked s) (hkc : s.argU 5 < 4 * s.argU 1) :
    exec (.compress p) s = .next (s.raiseError .scratchTooSmall (.ofSample (s.argU 5 / 4))) :=
  (if_pos (regionCheck_compress h)).trans (if_pos hkc)

theorem exec_compress_of_checked (h : compressChecked s) (hkc : 4 * s.argU 1 ≤ s.argU 5) :
    exec (.compress p) s = outcomeOf s.withEncPort s.afterCompress (compressBody p s) :=
  (if_pos (regionCheck_compress h)).trans (if_neg (Nat.not_lt.2 hkc))

theorem exec_decompress_of_not_checked (h : ¬decompressChecked s) :
    exec .decompress s = .next (s.raiseError .badArgument .na) := if_neg (mt regionCheck_decompress_iff.1 h)

theorem exec_decompress_of_checked (h : decompressChecked s) :
    exec .decompress s = outcomeOf s.withDecPort s.afterDecompress (decompressBody s) := if_pos (regionCheck_decompress h)

/-- With no input there is no header (R370). -/
theorem decompressBody_of_empty (h : s.argU 1 = 0) :
    decompressBody s = .error (.raised .inputExhausted .na ⟨{ s.dec with state := .failed }, s.buf⟩) :=
  if_pos (h.trans_lt Nat.one_pos)

/-- A header above 30 is no profile (R370, R383). -/
theorem decompressBody_of_bad_header (hil : 1 ≤ s.argU 1) (hin : s.argU 0 < s.buf.size)
    (hheader : 30 < (s.buf.byte (s.argU 0)).toNat) :
    decompressBody s = .error (.raised .badHeader .na ⟨s.dec, s.buf⟩) := by
  rw [decompressBody, if_neg (Nat.not_lt.2 hil), load_of_lt hin]
  exact if_pos hheader

end

/-- Settles O53: the checks come first, and each error completion is of the state itself. -/
theorem blockChecks : Obligations.BlockChecks := by
  intro s
  refine ⟨fun p => exec_compress_of_not_checked, fun p => exec_compress_of_small_scratch, exec_decompress_of_not_checked,
    fun h hil => ?_, fun h hil hheader => ?_⟩
  · rw [exec_decompress_of_checked h, decompressBody_of_empty hil]
    rfl
  · have hin := h.1
    rw [exec_decompress_of_checked h, decompressBody_of_bad_header hil (by omega) hheader]
    rfl

/-! ## How COMPRESS ends -/

/-- The ends of COMPRESS: an error of its checks, an error of its phases, or the commit (R361). -/
inductive CompressEnds (p : Profile) (s : State) : State → Prop where
  | notChecked (h : ¬compressChecked s) : CompressEnds p s (s.raiseError .badArgument .na)
  | smallScratch (h : compressChecked s) (hkc : s.argU 5 < 4 * s.argU 1) :
      CompressEnds p s (s.raiseError .scratchTooSmall (.ofSample (s.argU 5 / 4)))
  | raises (h : compressChecked s) (hkc : 4 * s.argU 1 ≤ s.argU 5) {e : ErrorCode} {site : Site} {q : EncPort}
      (hbody : compressBody p s = .error (.raised e site q)) : CompressEnds p s ((s.withEncPort q).raiseError e site)
  | completes (h : compressChecked s) (hkc : 4 * s.argU 1 ≤ s.argU 5) {r : Predictor × EncPort}
      (hbody : compressBody p s = .ok r) : CompressEnds p s (s.afterCompress r).complete

theorem exec_compress_next {s t : State} {p : Profile} (h : exec (.compress p) s = .next t) : CompressEnds p s t := by
  by_cases hchecked : compressChecked s
  · rcases Nat.lt_or_ge (s.argU 5) (4 * s.argU 1) with hkc | hkc
    · cases (exec_compress_of_small_scratch hchecked hkc).symm.trans h
      exact .smallScratch hchecked hkc
    · rw [exec_compress_of_checked hchecked hkc] at h
      rcases outcomeOf_eq_next.1 h with ⟨r, hbody, rfl⟩ | ⟨e, site, q, hbody, rfl⟩
      · exact .completes hchecked hkc hbody
      · exact .raises hchecked hkc hbody
  · cases (exec_compress_of_not_checked hchecked).symm.trans h
    exact .notChecked hchecked

section
variable {s : State} {p : Profile}

/-- The phases complete in order (R361). -/
theorem compressBody_completed {r : Predictor × EncPort} (h : compressBody p s = .ok r) :
    ∃ w m var, quantSamples (s.profile p) (s.argU 0) (s.argU 4) (s.argU 1) 0 s.pred s.buf = .ok (w, m) ∧
      entropyCode (s.profile p) (s.argU 4) (s.argU 1) (s.argU 2) (s.argU 3) w.var ⟨s.enc, m⟩ = .ok (var, r.2) ∧
      r.1 = { w with var := var } := by
  rw [compressBody_eq] at h
  obtain ⟨⟨w, m⟩, hquant, h⟩ := bind_eq_ok.1 h
  obtain ⟨⟨var, q⟩, hcode, h⟩ := bind_eq_ok.1 h
  cases h
  exact ⟨w, m, var, liftStop_eq_ok.1 hquant, hcode, rfl⟩

/-- The error of a failed COMPRESS is the first phase's, with the encoder as it was, or else the second's (R363, R367). -/
theorem compressBody_raised {e : ErrorCode} {site : Site} {q : EncPort} (h : compressBody p s = .error (.raised e site q)) :
    (∃ m, quantSamples (s.profile p) (s.argU 0) (s.argU 4) (s.argU 1) 0 s.pred s.buf = .error (.raised e site m) ∧
        q = ⟨s.enc, m⟩) ∨
      ∃ w m, quantSamples (s.profile p) (s.argU 0) (s.argU 4) (s.argU 1) 0 s.pred s.buf = .ok (w, m) ∧
        entropyCode (s.profile p) (s.argU 4) (s.argU 1) (s.argU 2) (s.argU 3) w.var ⟨s.enc, m⟩
          = .error (.raised e site q) := by
  rw [compressBody_eq] at h
  rcases bind_eq_error.1 h with h | ⟨⟨w, m⟩, hquant, h⟩
  · obtain ⟨st, hst, hmap⟩ := liftStop_eq_error.1 h
    obtain ⟨m, rfl, rfl⟩ := stop_map_eq_raised.1 hmap.symm
    exact .inl ⟨m, hst, rfl⟩
  · rcases bind_eq_error.1 h with h | ⟨r, -, h⟩
    · exact .inr ⟨w, m, liftStop_eq_ok.1 hquant, h⟩
    · cases h

end

end Machine
end Sys2Proof
end

section
/-! SUPPORT. Both phases of COMPRESS in whatever room there is (45_block.md R361, R367, R369): where phase 1 completes, scratch holds
the block's symbols, and where phase 2 completes too, it emitted them in 6 to 6 + 8n bytes. -/

namespace Sys2Proof
namespace Machine

/-! ## Phase 1 -/

section
variable {s : State} {p : Profile} (hchecked : compressChecked s) (hkc : 4 * s.argU 1 ≤ s.argU 5)
include hchecked hkc

/-- The samples keep clear of the symbols' scratch bytes (R360). -/
theorem samples_outside_scratch {b : Nat} (h1 : s.argU 0 ≤ b) (h2 : b < s.argU 0 + 16 * s.argU 1) :
    outside b (s.argU 4) (4 * s.argU 1) := by
  obtain ⟨-, -, -, -, hsep, -⟩ := hchecked
  have := outside_of_not_overlap hsep h1 h2
  simp only [outside] at *
  omega

/-- The symbols' scratch bytes keep clear of the output (R360). -/
theorem scratch_outside_output {b : Nat} (h1 : s.argU 4 ≤ b) (h2 : b < s.argU 4 + 4 * s.argU 1) :
    outside b (s.argU 2) (s.argU 3) := by
  obtain ⟨-, -, -, -, -, hsep⟩ := hchecked
  by_contra hb
  simp only [outside, overlap] at *
  omega

/-- Where phase 1 completes, no symbol overflows and scratch holds them all (R361, R362). -/
theorem quantSamples_completed {w : Predictor} {m : Buf}
    (h : quantSamples (s.profile p) (s.argU 0) (s.argU 4) (s.argU 1) 0 s.pred s.buf = .ok (w, m)) :
    ∃ qs, blockSymbols (s.profile p) s.pred (s.buf.samples (s.argU 0) (s.argU 1) 0) = some qs ∧ qs.length = s.argU 1 ∧
      w = { stepsWith (s.profile p) s.pred qs with var := s.pred.var } ∧ SymbolsStored (s.argU 4) 0 qs s.buf m := by
  obtain ⟨qs, hqs, hw, hstored⟩ := (quantSamples_endsAt (w := s.pred) (var := s.pred.var) (Nat.zero_add _).le hchecked.1
    fun b h1 h2 => samples_outside_scratch hchecked hkc h1 h2).ok _ h
  exact ⟨qs, hqs, (blockSymbols_length hqs).trans (samples_length ..), hw, hstored⟩

end

/-! ## Phase 2 -/

/-- flush_fn after the items, where it completes (R280, R281). -/
theorem Coded.emitted {v : State} {f oa oc : Nat} {m m1 : Buf} {items : List CodeItem} {p q : EncPort}
    (h : Coded v ⟨encoderStart (oa + 1) (oa + oc), m1⟩ items p) (hoa : oa + oc ≤ m.size) (hmax : m.size ≤ Config.bufSizeMax)
    (hoc : 1 ≤ oc) (hheader : m.store oa (BitVec.ofNat 8 f) = some m1) (hq : flushFn .na p = .ok q) :
    Emitted v items f oa oc m { q with enc := { q.enc with state := .flushed } } := by
  obtain ⟨hbase, hptr, hend, hcsize⟩ := encoderStart_regs hoa hoc hmax
  have hleast := h.least
  have hmost := h.most
  simp only [EncPort.frontier, hptr, hcsize] at hleast hmost
  have hwide : 0 < u32 p.enc.range := (by decide : 0 < Config.rcTop).trans_le h.runs.wide
  obtain ⟨-, hqptr, -⟩ := flushFn_value h.runs.opened hwide hq
  have hgrows := encGrows_trans h.runs.grows (flushFn_grows hq)
  have hbytes := hgrows.outside
  rw [hptr] at hbytes
  obtain ⟨u, hu, hsame⟩ := h.host
  obtain ⟨q', hq', hqq'⟩ := flushFn_follows (site' := .na) hsame q hq
  obtain ⟨t, ht, hport⟩ := encFlush_succeeds ((congrArg (·.state) hsame.enc).trans h.runs.active) hq'
  exact
    { state := rfl
      base := (congrArg u32 hgrows.base).trans hbase
      stop := (congrArg u32 hgrows.stop).trans hend
      least := hleast.trans hqptr.ge
      most := hqptr.le.trans hmost
      header := (hbytes oa (.inl (Nat.lt_succ_self oa))).trans (store_byte_same hheader)
      host := ⟨u, t, hu, ht, hport ▸ hqq'.update (fun e => { e with state := .flushed }) rfl rfl⟩
      frame := fun b hb => by
        simp only [outside] at hb
        rw [← store_byte_ne hheader (by omega : b ≠ oa)]
        exact hbytes b (by omega) }

/-- Phase 2 without output capacity (R361). -/
theorem entropyCode_of_no_output {f ka n oa oc : Nat} {var : Quad Word} {p : EncPort} (h : oc = 0) :
    entropyCode f ka n oa oc var p
      = .error (.raised .outputExhausted .na { p with enc := { p.enc with state := .failed } }) := if_pos (h.trans_lt Nat.one_pos)

section
variable {f ka n oa oc : Nat} {e : Encoder} {m : Buf} (hoa : oa + oc ≤ m.size)

/-- Phase 2 raises its own error only: without output capacity, or by an encoder that it started after the header (R361, R367). -/
theorem entropyCode_raised {var : Quad Word} {c : ErrorCode} {site : Site} {q : EncPort}
    (h : entropyCode f ka n oa oc var ⟨e, m⟩ = .error (.raised c site q)) :
    c = .outputExhausted ∧ ((oc = 0 ∧ q = ⟨{ e with state := .failed }, m⟩) ∨
      (1 ≤ oc ∧ ∃ m1, m.store oa (BitVec.ofNat 8 f) = some m1 ∧ EncGrows ⟨encoderStart (oa + 1) (oa + oc), m1⟩ q)) := by
  rcases Nat.eq_zero_or_pos oc with hoc | hoc
  · rw [entropyCode_of_no_output hoc] at h
    cases h
    exact ⟨rfl, .inl ⟨hoc, rfl⟩⟩
  · cases hheader : m.store oa (BitVec.ofNat 8 f) with
    | none =>
      rw [entropyCode, if_neg (Nat.not_lt.2 hoc), hheader] at h
      cases h
    | some m1 =>
      rw [entropyCode_eq hoc hheader] at h
      have hcoding := ends_iff.1 (encodeSamples_coding (ka := ka) (n := n) (i := 0) (v0 := var) (var := var)
        ⟨encRuns_encoderStart (oa + 1) (oa + oc) m1, id⟩)
      have fails : EncFails ⟨encoderStart (oa + 1) (oa + oc), m1⟩ c q := by
        rcases bind_eq_error.1 h with h | ⟨r, hr, h⟩
        · exact hcoding.2 _ _ _ h
        · rcases bind_eq_error.1 h with h | ⟨q', -, h⟩
          · exact (ends_iff.1 (flushFn_flushes (hcoding.1 r hr).1.grows)).2 _ _ _ h
          · cases h
      obtain ⟨hcode, -, hgrows⟩ := fails
      exact ⟨hcode, .inr ⟨hoc, m1, rfl, hgrows⟩⟩

include hoa

/-- Where phase 2 completes, it emitted the block's items, as the host would from any state whose encoder ENC_INIT just started on the
output after the header (R361, R364). -/
theorem entropyCode_completed {w : Predictor} {qs : List (Quad Int)} {var : Quad Word} {q : EncPort}
    (hmax : m.size ≤ Config.bufSizeMax) (hlen : qs.length = n) (hsep : ∀ b, ka ≤ b → b < ka + 4 * n → outside b oa oc)
    (hqs : ∀ (j : Nat) (q : Quad Int), qs[j]? = some q → ∀ c, m.symbol ka j c = q.get c)
    (h : entropyCode f ka n oa oc w.var ⟨e, m⟩ = .ok (var, q)) :
    1 ≤ oc ∧ var = (stepsWith f w qs).var ∧ ∀ v : State, v.enc = encoderStart (oa + 1) (oa + oc) → v.buf.size = m.size →
      Emitted v (blockItems f w qs) f oa oc m q := by
  have hoc : 1 ≤ oc := Nat.pos_of_ne_zero fun hoc => by
    rw [entropyCode_of_no_output hoc] at h
    cases h
  obtain ⟨hbase, hptr, hend, -⟩ := encoderStart_regs hoa hoc hmax
  obtain ⟨m1, hheader⟩ : ∃ m1, m.store oa (BitVec.ofNat 8 f) = some m1 := ⟨_, store_of_lt _ (by omega)⟩
  have hsize := store_size hheader
  rw [entropyCode_eq hoc hheader] at h
  obtain ⟨r, hloop, h⟩ := bind_eq_ok.1 h
  obtain ⟨q', hflush, h⟩ := bind_eq_ok.1 h
  cases h
  subst hlen
  have hsep1 : ∀ b, ka ≤ b → b < ka + 4 * qs.length → b < oa ∨ oa + oc ≤ b := hsep
  have hstored (j : Nat) (q : Quad Int) (hj : qs[j]? = some q) (c : Fin 4) : m1.symbol ka (0 + j) c = q.get c := by
    have hj' := (List.getElem?_eq_some_iff.1 hj).1
    have := hsep1 (ka + 4 * j + c.val) (by omega) (by omega)
    rw [← hqs j q hj c, Nat.zero_add, Buf.symbol, store_byte_ne hheader (by omega), Buf.symbol]
  have hcoded (v : State) (hv : v.enc = encoderStart (oa + 1) (oa + oc)) (hvsize : v.buf.size = m.size) :=
    (encodeSamples_endsAt (v := v) (f := f) (i := 0) (w := w) (items := []) (p := ⟨encoderStart (oa + 1) (oa + oc), m1⟩)
      (hsize ▸ encoderStart_ptrsInside (by omega) hoa hmax) (hsize ▸ hmax)
      (fun b h1 h2 => by rw [hptr, hend]; exact (hsep1 b h1 h2).imp (·.trans (Nat.lt_succ_self oa)) id) (Nat.zero_add _).le
      (Nat.zero_add _).le hstored ⟨encRuns_encoderStart _ _ _, ⟨v, rfl, hv, hvsize.trans hsize.symm, fun b h1 h2 => by
        simp only [hbase, hptr] at h1 h2
        omega⟩, Nat.le_refl _, Nat.le_refl _⟩).ok r hloop
  refine ⟨hoc, ?_, fun v hv hvsize => (hcoded v hv hvsize).2.emitted hoa hmax hoc hheader hflush⟩
  exact (hcoded { State.reset with enc := encoderStart (oa + 1) (oa + oc), buf := m } rfl rfl).1

end

/-- A COMPRESS that completes: its symbols fit, and it committed and emitted them (R361, R366). -/
theorem compressBody_emitted {s : State} {p : Profile} {w : Predictor} {q : EncPort} (hchecked : compressChecked s)
    (hkc : 4 * s.argU 1 ≤ s.argU 5) (hmax : s.buf.size ≤ Config.bufSizeMax) (h : compressBody p s = .ok (w, q)) :
    ∃ qs m, blockSymbols (s.profile p) s.pred (s.buf.samples (s.argU 0) (s.argU 1) 0) = some qs ∧ qs.length = s.argU 1 ∧
      w = stepsWith (s.profile p) s.pred qs ∧ 1 ≤ s.argU 3 ∧ m.size = s.buf.size ∧
      ∀ v : State, v.enc = encoderStart (s.argU 2 + 1) (s.argU 2 + s.argU 3) → v.buf.size = s.buf.size →
        Emitted v (blockItems (s.profile p) s.pred qs) (s.profile p) (s.argU 2) (s.argU 3) m q := by
  obtain ⟨w1, m, var, hquant, hcode, hw⟩ := compressBody_completed h
  obtain ⟨qs, hqs, hlen, rfl, hstored⟩ := quantSamples_completed hchecked hkc hquant
  have hsize := hstored.size
  obtain ⟨hoc, rfl, hemitted⟩ := entropyCode_completed (w := s.pred) (hsize ▸ hchecked.2.1) (hsize ▸ hmax) hlen
    (fun b h1 h2 => scratch_outside_output hchecked hkc h1 h2)
    (fun j q hj c => by have := hstored.symbols j q hj c; rwa [Nat.zero_add] at this) hcode
  exact ⟨qs, m, hqs, hlen, hw, hoc, hsize, fun v hv hvsize => hemitted v hv (hvsize.trans hsize.symm)⟩

/-! ## The size of a payload (R369) -/

/-- With 6 + 8n bytes of output, a block whose symbols fit does not exhaust it. -/
theorem compressBody_not_exhausted {s : State} {p : Profile} {site : Site} {q : EncPort} (hchecked : compressChecked s)
    (hkc : 4 * s.argU 1 ≤ s.argU 5) (hmax : s.buf.size ≤ Config.bufSizeMax) (hroom : 6 + 8 * s.argU 1 ≤ s.argU 3) :
    compressBody p s ≠ .error (.raised .outputExhausted site q) := by
  intro h
  rcases compressBody_raised h with ⟨m, hquant, -⟩ | ⟨w, m, hquant, -⟩
  · obtain ⟨hcode, -⟩ := (ends_iff.1 (quantSamples_ends (bufKept_refl s.buf))).2 _ _ _ hquant
    cases hcode
  · obtain ⟨qs, hqs, -⟩ := quantSamples_completed hchecked hkc hquant
    obtain ⟨v, -, hv, hvbuf⟩ := encodeInto_afterHeader hchecked.2.1 (by omega) hmax
    obtain ⟨m', q', hbody, -⟩ := compressBody_of_room hchecked hmax hkc hroom hqs hv hvbuf
    cases h.symm.trans hbody

/-- Settles O55: a payload is the header, the code's five bytes and at most two for each symbol. -/
theorem compressSize : Obligations.CompressSize := by
  intro s t p hbuf hs h
  have hmax : s.buf.size ≤ Config.bufSizeMax := hbuf.2.2
  cases exec_compress_next h with
  | notChecked => exact ⟨fun herr => (by cases herr), fun _ hcode => by cases hcode⟩
  | smallScratch => exact ⟨fun herr => (by cases herr), fun _ hcode => by cases hcode⟩
  | raises hchecked hkc hbody =>
    refine ⟨fun herr => (by cases herr), fun hroom hcode => ?_⟩
    cases hcode
    exact compressBody_not_exhausted hchecked hkc hmax hroom hbody
  | @completes hchecked hkc r hbody =>
    obtain ⟨w, q⟩ := r
    obtain ⟨qs, m, -, hlen, -, hoc, -, hemitted⟩ := compressBody_emitted hchecked hkc hmax hbody
    obtain ⟨v, -, hv, hvbuf⟩ := encodeInto_afterHeader hchecked.2.1 hoc hmax
    have hpayload := hemitted v hv (congrArg _ hvbuf)
    have hleast := hpayload.least
    have hmost := hpayload.most
    rw [blockItems_length, hlen] at hmost
    have hcount := compress_count (s := s) (w := w) (q := q) (by omega)
    refine ⟨fun _ => by omega, fun _ hcode => ?_⟩
    cases hs.2.symm.trans hcode

end Machine
end Sys2Proof
end

section
/-! SUPPORT. The symbols and the reconstructions of a block (44_predictor.md R322 to R324, R328): where no symbol overflows, each is
`quant_fn` of its component, and each reconstruction is within half a step of its sample. -/

namespace Sys2Proof
namespace Machine

theorem quantOverflows_eq_false_iff {a pr : Int} {f : Nat} : quantOverflows a pr f = false ↔ isSymbol (quantFn a pr f) = true := by
  rw [quantOverflows, Bool.not_eq_false']

/-- The symbols of a sample, where there are any, are those of its components, and none overflows (R322, R328). -/
theorem symbolsOf_get {f : Nat} {w : Predictor} {a q : Quad Int} (h : symbolsOf f w a = some q) (c : Fin 4) :
    quantOverflows (a.get c) (w.prediction.get c) f = false ∧ q.get c = quantFn (a.get c) (w.prediction.get c) f := by
  have hfits (d : Fin 4) : quantOverflows (a.get d) (w.prediction.get d) f = false := by
    rw [← Bool.not_eq_true]
    intro hover
    cases (symbolsOf_eq_none hover).symm.trans h
  refine ⟨hfits c, ?_⟩
  cases (symbolsOf_eq_some hfits).symm.trans h
  fin_cases c <;> rfl

theorem symbolsOf_isSymbol {f : Nat} {w : Predictor} {a q : Quad Int} (h : symbolsOf f w a = some q) (c : Fin 4) :
    isSymbol (q.get c) = true := by
  obtain ⟨hfits, hq⟩ := symbolsOf_get h c
  exact hq ▸ quantOverflows_eq_false_iff.1 hfits

theorem blockSymbols_cons {f : Nat} {w : Predictor} {a : Quad Int} {as qs : List (Quad Int)}
    (h : blockSymbols f w (a :: as) = some qs) :
    ∃ q rest, symbolsOf f w a = some q ∧ blockSymbols f (stepWith f w q) as = some rest ∧ qs = q :: rest := by
  obtain ⟨q, hq, h⟩ := Option.bind_eq_some_iff.1 h
  obtain ⟨rest, hrest, rfl⟩ := Option.map_eq_some_iff.1 h
  exact ⟨q, rest, hq, hrest, rfl⟩

theorem blockSymbols_isSymbol {f : Nat} {w : Predictor} {as qs : List (Quad Int)} (h : blockSymbols f w as = some qs) :
    ∀ q ∈ qs, ∀ c, isSymbol (q.get c) = true := by
  induction as generalizing w qs with
  | nil =>
    cases h
    simp
  | cons a as ih =>
    obtain ⟨q, rest, hq, hrest, rfl⟩ := blockSymbols_cons h
    exact List.forall_mem_cons.2 ⟨symbolsOf_isSymbol hq, ih hrest⟩

/-! ## Half a step (R324) -/

/-- A prediction is saturated, so it is an s32 (R242, R320). -/
theorem prediction_get (w : Predictor) (c : Fin 4) : ∃ x : Word, w.prediction.get c = s32 x := by
  rw [Predictor.prediction, predictFn, qmulFn, quad_get_map]
  exact ⟨_, (s32_toWord_sat32 _).symm⟩

theorem reconstruct_get (f : Nat) (w : Predictor) (q : Quad Int) (c : Fin 4) :
    (reconstruct f w q).get c = dequantFn (w.prediction.get c) (q.get c) f := by
  fin_cases c <;> rfl

/-- The two are at most half a step of profile f apart in every component. -/
def WithinHalfAStep (f : Nat) (r a : Quad Int) : Prop := ∀ c : Fin 4, 2 * |r.get c - a.get c| ≤ 2 ^ (30 - f)

theorem reconstruct_withinHalfAStep {f : Nat} {w : Predictor} {a q : Quad Int} (hf : f ≤ 30)
    (ha : ∀ c, ∃ x : Word, a.get c = s32 x) (h : symbolsOf f w a = some q) : WithinHalfAStep f (reconstruct f w q) a := by
  intro c
  obtain ⟨hfits, hq⟩ := symbolsOf_get h c
  obtain ⟨x, hx⟩ := ha c
  obtain ⟨pr, hpr⟩ := prediction_get w c
  rw [hx, hpr] at hfits hq
  obtain ⟨hhalf, hexact⟩ := reconstructionWithinHalfAStep x pr f hf hfits
  rw [reconstruct_get, hx, hpr, hq]
  rcases Nat.lt_or_eq_of_le hf with hlt | rfl
  · have hstep : (2 : Int) ^ (30 - f) = 2 * 2 ^ (29 - f) := by
      rw [show 30 - f = 29 - f + 1 by omega, pow_succ']
    have := hhalf hlt
    omega
  · rw [hexact rfl, sub_self]
    decide

theorem reconstructions_withinHalfAStep {f : Nat} {w : Predictor} {as qs : List (Quad Int)} (hf : f ≤ 30)
    (has : ∀ a ∈ as, ∀ c, ∃ x : Word, a.get c = s32 x) (h : blockSymbols f w as = some qs) :
    List.Forall₂ (WithinHalfAStep f) (reconstructions f w qs) as := by
  induction as generalizing w qs with
  | nil =>
    cases h
    exact .nil
  | cons a as ih =>
    obtain ⟨q, rest, hq, hrest, rfl⟩ := blockSymbols_cons h
    obtain ⟨ha, has⟩ := List.forall_mem_cons.1 has
    exact .cons (reconstruct_withinHalfAStep hf ha hq) (ih has hrest)

/-! ## The samples of a region -/

theorem sample_get (m : Buf) (sa i : Nat) (c : Fin 4) : (m.sample sa i).get c = m.component sa i c := by
  fin_cases c <;> rfl

theorem samples_getElem? (m : Buf) (sa : Nat) {n i j : Nat} (h : j < n) :
    (m.samples sa n i)[j]? = some (m.sample sa (i + j)) := by
  induction n generalizing i j with
  | zero => omega
  | succ n ih =>
    cases j with
    | zero => rfl
    | succ j =>
      rw [Buf.samples, List.getElem?_cons_succ, ih (Nat.lt_of_succ_lt_succ h), Nat.add_right_comm, Nat.add_assoc]

theorem samples_are_words (m : Buf) (sa n i : Nat) : ∀ a ∈ m.samples sa n i, ∀ c, ∃ x : Word, a.get c = s32 x := by
  intro a ha c
  obtain ⟨j, hj⟩ := List.mem_iff_getElem?.1 ha
  have hn : j < n := (List.getElem?_eq_some_iff.1 hj).1.trans_eq (samples_length m sa n i)
  cases (samples_getElem? m sa hn).symm.trans hj
  exact ⟨_, sample_get m sa (i + j) c⟩

/-- What was written is within half a step of what was sampled (R324, R379). -/
theorem components_withinHalfAStep {f sa sa' n : Nat} {w : Predictor} {m m' : Buf} {qs : List (Quad Int)} (hf : f ≤ 30)
    (hqs : blockSymbols f w (m.samples sa n 0) = some qs) (hm : m'.samples sa' n 0 = reconstructions f w qs) {i : Nat}
    (hi : i < n) (c : Fin 4) : 2 * |m'.component sa' i c - m.component sa i c| ≤ 2 ^ (30 - f) := by
  have hall := reconstructions_withinHalfAStep hf (samples_are_words m sa n 0) hqs
  rw [← hm] at hall
  have hi1 : i < (m'.samples sa' n 0).length := hi.trans_eq (samples_length ..).symm
  have hi2 : i < (m.samples sa n 0).length := hi.trans_eq (samples_length ..).symm
  have hnear := (List.forall₂_iff_get.1 hall).2 i hi1 hi2 c
  have hget' := (List.getElem?_eq_some_iff.1 (samples_getElem? m' sa' (i := 0) hi)).2
  have hget := (List.getElem?_eq_some_iff.1 (samples_getElem? m sa (i := 0) hi)).2
  simp only [List.get_eq_getElem, hget', hget, sample_get, Nat.zero_add] at hnear
  exact hnear

end Machine
end Sys2Proof
end

section
/-! SUPPORT. A payload moved to another place decodes to the same symbols (45_block.md R378, R379): a decoder reads only its input, so
DECOMPRESS of bytes that the host's DEC_SYMB decodes elsewhere follows the host symbol by symbol, whatever stands after them. -/

namespace Sys2Proof
namespace Machine

/-! ## The same bytes at another place -/

/-- The l bytes from a in m are those from a' in m', whose addresses below stop exist. -/
structure SamePayload (m : Buf) (a l : Nat) (m' : Buf) (a' stop : Nat) : Prop where
  bytes : ∀ k, k < l → m'.byte (a' + k) = m.byte (a + k)
  fits : a' + l ≤ stop
  inside : stop ≤ m'.size

theorem bigNumber_moved {m m' : Buf} {a a' n : Nat} (h : ∀ k, k < n → m'.byte (a' + k) = m.byte (a + k)) :
    m'.bigNumber a' n = m.bigNumber a n := by
  induction n with
  | zero => rfl
  | succ n ih => rw [Buf.bigNumber, Buf.bigNumber, h n (Nat.lt_succ_self n), ih fun k hk => h k (Nat.lt_succ_of_lt hk)]

/-- The decoder d is where the ACTIVE decoder e is: with e's range and code, as far into its input at a' as e is into the l bytes at
a, and it may read up to stop. -/
structure Mirrors (a l a' stop : Nat) (e d : Decoder) : Prop where
  active : e.state = .active
  wide : Config.rcTop ≤ u32 e.range
  range : d.range = e.range
  code : d.code = e.code
  start : a ≤ u32 e.inPtr
  order : u32 e.inPtr ≤ u32 e.inEnd
  ends : u32 e.inEnd = a + l
  ptr : u32 d.inPtr + a = u32 e.inPtr + a'
  stop : u32 d.inEnd = stop

section
variable {m m' : Buf} {a l a' stop : Nat} {e d : Decoder} (hsame : SamePayload m a l m' a' stop) (h : Mirrors a l a' stop e d)
include hsame h

/-- consume_fn reads the same bytes (R295). -/
theorem consumeFn_mirrors {site : Site} (site' : Site) {cum fr : Nat} {e1 : Decoder} (hf : 1 ≤ fr) (hc : cum + fr ≤ Config.total)
    (he : consumeFn site m cum fr e = .ok e1) :
    ∃ d1, consumeFn site' m' cum fr d = .ok d1 ∧ Mirrors a l a' stop e1 d1 := by
  obtain ⟨hactive, hwide, hrange, hcode, hstart, horder, hends, hptr, hstop⟩ := h
  obtain ⟨k, -, hrange1, hwide1, hmin, hptr1, hcode1, hstate1⟩ := consumeFn_value hwide hf hc he
  have hreads := consumeFn_reads he
  have hstop1 : u32 e1.inEnd = u32 e.inEnd := congrArg u32 hreads.stop
  have hbound := hreads.bound
  have hfits := hsame.fits
  -- the bytes that the host's decoder took are there for this one
  have hroom : u32 d.inPtr + k ≤ u32 d.inEnd := by omega
  have henough : 2 ^ 24 ≤ u32 (decNarrow cum fr d).range * 256 ^ k := by
    rw [decNarrow_range hc, hrange, ← hrange1]
    exact hwide1
  obtain ⟨d1, hd⟩ : ∃ d1, consumeFn site' m' cum fr d = .ok d1 := decRenorm_of_room henough hroom (hstop ▸ hsame.inside)
  obtain ⟨j, -, hrange2, hwide2, hmin2, hptr2, hcode2, -⟩ := consumeFn_value (hrange ▸ hwide) hf hc hd
  rw [hrange] at hrange2 hmin2 hcode2
  obtain rfl : j = k := passes_unique (hrange2 ▸ hwide2) hmin2 (hrange1 ▸ hwide1) hmin
  have hbytes : m'.bigNumber (u32 d.inPtr) j = m.bigNumber (u32 e.inPtr) j := bigNumber_moved fun k hk => by
    obtain ⟨o, ho⟩ := Nat.exists_eq_add_of_le hstart
    have hd : u32 d.inPtr = a' + o := by omega
    rw [ho, hd, Nat.add_assoc, Nat.add_assoc]
    exact hsame.bytes (o + k) (by omega)
  rw [hcode, hbytes] at hcode2
  refine ⟨d1, hd, hstate1.trans hactive, hwide1, BitVec.eq_of_toNat_eq (hrange2.trans hrange1.symm),
    BitVec.eq_of_toNat_eq (hcode2.trans hcode1.symm), ?_, ?_, hstop1.trans hends, ?_,
    (congrArg u32 (consumeFn_reads hd).stop).trans hstop⟩
  · omega
  · omega
  · omega

theorem decodeSymbol_mirrors {site : Site} (site' : Site) {b : Bucket} {x : Int} {y : Nat} {e1 : Decoder}
    (he : decodeSymbol site m b e = .ok (x, y, e1)) :
    ∃ d1, decodeSymbol site' m' b d = .ok (x, y, d1) ∧ Mirrors a l a' stop e1 d1 := by
  have hval : decValFn d = decValFn e := by rw [decValFn, h.code, h.range, decValFn]
  have hfr := one_le_freqFn b (isSymbol_icdfFn b (decValFn_lt e))
  obtain ⟨e1', he, heq⟩ := map_eq_ok.1 he
  cases heq
  obtain ⟨d1, hd, hmirrors⟩ := consumeFn_mirrors hsame h site' hfr (cdfFn_add_freqFn_le hfr) he
  rw [← hval] at hd ⊢
  exact ⟨d1, map_eq_ok.2 ⟨d1, hd, rfl⟩, hmirrors⟩

end

/-! ## Symbols as the host recovers them -/

/-- What the host's DEC_SYMB did when it recovered a symbol (R297). -/
theorem recoversItem_symbol {v u : State} {b : Bucket} {x : Int} (ha : v.dec.state = .active) (hwide : Config.rcTop ≤ u32 v.dec.range)
    (hx : isSymbol x = true) (h : recoversItem v u (.symbol b x)) :
    u.buf = v.buf ∧ ∃ y, decodeSymbol .na v.buf b v.dec = .ok (x, y, u.dec) := by
  obtain ⟨hissue, hres⟩ := h
  have hexec := exec_decSymb_of_active b (s := v.accept (encode (.decSymb b))) ha
  rw [State.issue, hexec] at hissue
  obtain ⟨⟨x', y, e⟩, hr, rfl⟩ := succeededIn_outcomeOf hissue
  have hx' := ((ends_iff.1 (decodeSymbol_runs ⟨decReads_refl _, ha, hwide⟩)).1 _ hr).2
  have hword : toWord x' = toWord x := hres
  obtain rfl : x' = x := (s32_toWord_of_symbol hx').symm.trans ((congrArg s32 hword).trans (s32_toWord_of_symbol hx))
  exact ⟨rfl, y, hr⟩

/-- The host recovers the items from its l bytes at a in m, up to the state w, and d is where the host's decoder is before them. -/
def Pending (m : Buf) (a l a' stop : Nat) (w : State) (items : List CodeItem) (d : Decoder) : Prop :=
  ∃ v : State, v.buf = m ∧ recoversTo v w items ∧ Mirrors a l a' stop v.dec d

section
variable {m m' : Buf} {a l a' stop : Nat} {w : State} {items : List CodeItem} {d : Decoder} {f i : Nat}
  (hsame : SamePayload m a l m' a' stop)
include hsame

theorem decodeChannel_of_pending {c : Fin 4} {pr x : Int} {var : Quad Word} (hx : isSymbol x = true)
    (h : Pending m a l a' stop w (.symbol (classifyFn (var.get c)) x :: items) d) :
    ∃ d1, decodeChannel f i c pr m' var d = .ok (dequantFn pr x f, var.set c (updateVar (var.get c) x), d1) ∧
      Pending m a l a' stop w items d1 := by
  obtain ⟨v, rfl, ⟨u, hitem, hrest⟩, hmirrors⟩ := h
  obtain ⟨hbuf, y, hy⟩ := recoversItem_symbol hmirrors.active hmirrors.wide hx hitem
  obtain ⟨d1, hd, hmirrors⟩ := decodeSymbol_mirrors hsame hmirrors (.ofSymbol i c) hy
  exact ⟨d1, map_eq_ok.2 ⟨_, hd, rfl⟩, u, hbuf, hrest, hmirrors⟩

/-- The four symbols of a sample (R370). -/
theorem decodeSample_of_pending {w0 : Predictor} {q : Quad Int} (hq : ∀ c, isSymbol (q.get c) = true)
    (h : Pending m a l a' stop w (sampleItems w0.var q ++ items) d) :
    ∃ d1, decodeSample f i w0 m' d = .ok (reconstruct f w0 q, updateVars w0.var q, d1) ∧ Pending m a l a' stop w items d1 := by
  obtain ⟨d0, h0, h⟩ := decodeChannel_of_pending (f := f) (i := i) (c := 0) (pr := w0.prediction.c0) hsame (hq 0) h
  obtain ⟨d1, h1, h⟩ := decodeChannel_of_pending (f := f) (i := i) (c := 1) (pr := w0.prediction.c1)
    (var := w0.var.set 0 (updateVar w0.var.c0 q.c0)) hsame (hq 1) h
  obtain ⟨d2, h2, h⟩ := decodeChannel_of_pending (f := f) (i := i) (c := 2) (pr := w0.prediction.c2)
    (var := (w0.var.set 0 (updateVar w0.var.c0 q.c0)).set 1 (updateVar w0.var.c1 q.c1)) hsame (hq 2) h
  obtain ⟨d3, h3, h⟩ := decodeChannel_of_pending (f := f) (i := i) (c := 3) (pr := w0.prediction.c3)
    (var := ((w0.var.set 0 (updateVar w0.var.c0 q.c0)).set 1 (updateVar w0.var.c1 q.c1)).set 2 (updateVar w0.var.c2 q.c2))
    hsame (hq 3) h
  refine ⟨d3, ?_, h⟩
  rw [decodeSample_eq]
  exact bind_eq_ok.2 ⟨_, h0, bind_eq_ok.2 ⟨_, h1, bind_eq_ok.2 ⟨_, h2, bind_eq_ok.2 ⟨_, h3, rfl⟩⟩⟩⟩

end

/-! ## Sample by sample -/

/-- Once its symbols are decoded, a sample is written and the working copy advances (R370). -/
theorem decompressSample_written {f sa i : Nat} {w : Predictor} {p : DecPort} {q : Quad Int} {d : Decoder}
    {E : ErrorCode → Site → DecPort → Prop} (hq : ∀ c, isSymbol (q.get c) = true)
    (hd : decodeSample f i w p.buf p.dec = .ok (reconstruct f w q, updateVars w.var q, d)) :
    EndsAt (fun r => r.1 = stepWith f w q ∧ r.2.dec = d ∧ SamplesDone f sa i w p.buf [q] r.2.buf) E
      (decompressSample f sa i w p) := by
  refine endsAt_bind (P := (· = (reconstruct f w q, updateVars w.var q, d))) (hd ▸ endsAt_ok rfl) ?_
  rintro _ rfl
  refine endsAt_bind (storeComponent_stored ..) fun p0 h0 => endsAt_bind (storeComponent_stored ..) fun p1 h1 =>
    endsAt_bind (storeComponent_stored ..) fun p2 h2 => endsAt_bind (storeComponent_stored ..) fun p3 h3 => ?_
  obtain ⟨hdec, hsize, hsample, hframe⟩ := sample_of_components h0 h1 h2 h3
  rw [reconstruct_words] at hsample
  refine endsAt_ok ⟨rfl, hdec, ?_, congrArg (· :: []) hsample, hframe, hsize⟩
  simpa [isSymbol_iff] using hq

/-- The samples that are written keep clear of the input. -/
theorem SamePayload.afterSamples {m : Buf} {a l a' stop : Nat} {f sa i n : Nat} {w : Predictor} {m1 m2 : Buf}
    {qs : List (Quad Int)} (h : SamePayload m a l m1 a' stop) (hdone : SamplesDone f sa i w m1 qs m2) (hn : i + qs.length ≤ n)
    (hsep : ∀ b, a' ≤ b → b < stop → outside b sa (16 * n)) : SamePayload m a l m2 a' stop := by
  refine ⟨fun k hk => ?_, h.fits, hdone.size.symm ▸ h.inside⟩
  have hfits := h.fits
  have hout := hsep (a' + k) (by omega) (by omega)
  simp only [outside] at hout
  rw [hdone.frame _ (by simp only [outside]; omega), h.bytes k hk]

/-- DECOMPRESS for the samples whose items the host recovers: it decodes and writes them all (R370, R379). -/
theorem decompressSamples_of_pending {m : Buf} {a l a' stop : Nat} {u : State} {f sa i n : Nat}
    {w : Predictor} {p : DecPort} {qs : List (Quad Int)} (hsame : SamePayload m a l p.buf a' stop)
    (hsep : ∀ b, a' ≤ b → b < stop → outside b sa (16 * n)) (hn : i + qs.length ≤ n)
    (hqs : ∀ q ∈ qs, ∀ c, isSymbol (q.get c) = true)
    (h : Pending m a l a' stop u (blockItems f w qs) p.dec) :
    EndsAt (fun r => r.1 = stepsWith f w qs ∧ Pending m a l a' stop u [] r.2.dec ∧ SamplesDone f sa i w p.buf qs r.2.buf)
      (fun _ _ _ => False) (decompressSamples f sa qs.length i w p) := by
  induction qs generalizing i w p with
  | nil => exact endsAt_ok ⟨rfl, h, samplesDone_nil ..⟩
  | cons q qs ih =>
    obtain ⟨hq, hqs⟩ := List.forall_mem_cons.1 hqs
    rw [List.length_cons] at hn
    obtain ⟨d, hd, h⟩ := decodeSample_of_pending (f := f) (i := i) hsame hq h
    refine endsAt_bind (decompressSample_written hq hd) ?_
    rintro ⟨_, p'⟩ ⟨rfl, rfl, hdone⟩
    have hone : [q].length = 1 := rfl
    refine endsAt_mono (ih (hsame.afterSamples hdone (by omega) hsep) (by omega) hqs h) ?_ fun _ _ _ => id
    rintro r ⟨hw, hrest, hdone'⟩
    exact ⟨hw, hrest, samplesDone_cons hdone hdone'⟩

end Machine
end Sys2Proof
end

section
/-! SUPPORT. The round trip of a block (45_block.md R379). The payload of a COMPRESS is what the host's ENC_INIT, ENC_SYMB and
ENC_FLUSH write, which the host's DEC_INIT and DEC_SYMB recover (R299), and DECOMPRESS follows the latter on its own copy of the
bytes. -/

namespace Sys2Proof
namespace Machine

theorem sampleItems_legal {var : Quad Word} {q : Quad Int} (hq : ∀ c, isSymbol (q.get c) = true) :
    ∀ i ∈ sampleItems var q, i.legal := by
  simp only [sampleItems, List.forall_mem_cons, List.not_mem_nil, false_imp_iff, implies_true, and_true]
  exact ⟨hq 0, hq 1, hq 2, hq 3⟩

theorem blockItems_legal {f : Nat} {w : Predictor} {qs : List (Quad Int)} (h : ∀ q ∈ qs, ∀ c, isSymbol (q.get c) = true) :
    ∀ i ∈ blockItems f w qs, i.legal := by
  induction qs generalizing w with
  | nil => simp [blockItems]
  | cons q qs ih =>
    obtain ⟨hq, hqs⟩ := List.forall_mem_cons.1 h
    exact List.forall_mem_append.2 ⟨sampleItems_legal hq, ih hqs⟩

/-! ## The payload as the host decodes it -/

/-- The host's DEC_INIT and DEC_SYMB recover the items of an emitted payload, whose last byte they read (R299, R300). -/
theorem Emitted.recovered {s v : State} {a l : Word} {items : List CodeItem} {f oa oc : Nat} {m : Buf} {q : EncPort}
    (h : Emitted v items f oa oc m q) (hbuf : s.buf.Inv) (hl : ∀ i ∈ items, i.legal) (hinit : (s.encodeInto a l).succeededIn v) :
    ∃ (d1 d2 : State) (c : Word), d1.dec = decoderLoaded d1.buf q.enc.outBase c 5 .active ∧ recoversTo d1 d2 items ∧
      u32 d2.dec.inPtr = u32 q.enc.outPtr ∧ u32 q.enc.outBase + u32 c = u32 q.enc.outPtr ∧ u32 q.enc.outPtr ≤ d1.buf.size ∧
      d1.buf.size ≤ Config.bufSizeMax ∧
      ∀ b, u32 q.enc.outBase ≤ b → b < u32 q.enc.outPtr → d1.buf.byte b = q.buf.byte b := by
  obtain ⟨e2, e3, hitems, hflush, hsame⟩ := h.host
  have henc : e3.enc = q.enc := hsame.enc
  obtain ⟨hle, hport⟩ := encInit_succeeded hinit
  have hrun1 : EncRuns v.encPort v.encPort := hport ▸ encRuns_encoderStart _ _ _
  have hrun2 := encodesTo_runs hrun1 hl hitems
  obtain ⟨-, -, hcount, hgrows⟩ := encFlush_succeeded hrun2 hflush
  obtain ⟨-, horder, hin, hsize⟩ := written_region hle hbuf.2.2 (hport ▸ encGrows_trans hrun2.grows hgrows)
  obtain ⟨d1, d2, hd1, hrec, hptr, -⟩ :=
    rangeCoderRoundTrip ((s.writeArg 0 a).writeArg 1 l) v e2 e3 items hbuf hl hinit hitems hflush
  have hmax : e3.buf.size ≤ Config.bufSizeMax := hsize.trans_le hbuf.2.2
  have hbase := h.base
  have hleast := h.least
  rw [← henc] at hbase hleast ⊢
  have hin : u32 e3.enc.outPtr ≤ e3.buf.size := hin
  have hlen : u32 e3.result.c0 = u32 e3.enc.outPtr - u32 e3.enc.outBase := hcount ▸ u32_sub (by omega)
  have hregion : u32 e3.enc.outBase + u32 e3.result.c0 = u32 e3.enc.outPtr := by omega
  obtain ⟨d, hd, hdec, hdbuf⟩ := decodeFrom_of_le (hregion.trans_le hin) hmax (by omega)
  cases hd1.1.symm.trans hd.1
  rw [← hdbuf] at hdec hin hmax
  exact ⟨d1, d2, _, hdec, hrec, hptr, hregion, hin, hmax, fun b h1 h2 =>
    (congrArg (·.byte b) hdbuf).trans (hsame.bytes b (henc ▸ h1) (henc ▸ h2))⟩

/-- Two decoders that DEC_INIT or DECOMPRESS just started on the same payload. -/
theorem mirrors_start {m m' : Buf} {a l a' l' : Word} (hm : u32 a + u32 l ≤ m.size) (hmax : m.size ≤ Config.bufSizeMax)
    (hm' : u32 a' + u32 l' ≤ m'.size) (hmax' : m'.size ≤ Config.bufSizeMax) (h5 : 5 ≤ u32 l)
    (hsame : SamePayload m (u32 a) (u32 l) m' (u32 a') (u32 a' + u32 l')) :
    Mirrors (u32 a) (u32 l) (u32 a') (u32 a' + u32 l') (decoderLoaded m a l 5 .active) (decoderLoaded m' a' l' 5 .active) := by
  have hend := u32_regionEnd hm hmax
  have hfits := hsame.fits
  simp only [Config.bufSizeMax] at hmax hmax'
  have hptr : u32 (BitVec.ofNat 32 (u32 a + 5)) = u32 a + 5 := u32_ofNat (by omega)
  have hptr' : u32 (BitVec.ofNat 32 (u32 a' + 5)) = u32 a' + 5 := u32_ofNat (by omega)
  exact
    { active := rfl
      wide := rcTop_le_fullRange
      range := rfl
      code := congrArg (BitVec.ofNat 32) (bigNumber_moved fun k hk => hsame.bytes k (by omega))
      start := by simp only [decoderLoaded, hptr]; omega
      order := by simp only [decoderLoaded, hptr, hend]; omega
      ends := hend
      ptr := by simp only [decoderLoaded, hptr, hptr']; omega
      stop := u32_regionEnd hm' hmax' }

/-! ## DECOMPRESS of a payload -/

section
variable {s : State} (hin : s.argU 0 + s.argU 1 ≤ s.buf.size) (h6 : 6 ≤ s.argU 1) (hmax : s.buf.size ≤ Config.bufSizeMax)
include hin h6 hmax

/-- The input after the header, as the operands of DEC_INIT. -/
theorem u32_afterHeader : u32 (s.argLo.c0 + 1#32) = s.argU 0 + 1 ∧ u32 (s.argLo.c1 - 1#32) = s.argU 1 - 1 := by
  simp only [Config.bufSizeMax, State.argU] at *
  exact ⟨u32_add_one (by omega), u32_sub_one (by omega)⟩

theorem decInitFn_afterHeader_loaded :
    decInitFn .na s.buf (decoderStart s.dec (s.argU 0 + 1) (s.argU 0 + s.argU 1))
      = .ok (decoderLoaded s.buf (s.argLo.c0 + 1#32) (s.argLo.c1 - 1#32) 5 .active) := by
  obtain ⟨ha, hl⟩ := u32_afterHeader hin h6 hmax
  have hregion : u32 (s.argLo.c0 + 1#32) + u32 (s.argLo.c1 - 1#32) = s.argU 0 + s.argU 1 := by omega
  have hinit := decInitFn_of_le (site := .na) (d := s.dec) (hregion.trans_le hin) hmax (by omega)
  rwa [hregion, ha] at hinit

end

/-- In another BUF the payload's items are pending for the decoder that DECOMPRESS starts after the header (R370, R378). -/
theorem Emitted.pending {s u v : State} {a l : Word} {items : List CodeItem} {f oa oc : Nat} {m : Buf} {q : EncPort}
    (h : Emitted v items f oa oc m q) (hbuf : s.buf.Inv) (hl : ∀ i ∈ items, i.legal) (hinit : (s.encodeInto a l).succeededIn v)
    (hin : u.argU 0 + u.argU 1 ≤ u.buf.size) (hmax : u.buf.size ≤ Config.bufSizeMax) (hil : u32 q.enc.outPtr - oa ≤ u.argU 1)
    (hpayload : ∀ k, k < u32 q.enc.outPtr - oa → u.buf.byte (u.argU 0 + k) = q.buf.byte (oa + k)) :
    ∃ (m0 : Buf) (w : State) (c : Nat), SamePayload m0 (oa + 1) c u.buf (u.argU 0 + 1) (u.argU 0 + u.argU 1) ∧
      Pending m0 (oa + 1) c (u.argU 0 + 1) (u.argU 0 + u.argU 1) w items
        (decoderLoaded u.buf (u.argLo.c0 + 1#32) (u.argLo.c1 - 1#32) 5 .active) ∧
      u32 w.dec.inPtr = u32 q.enc.outPtr := by
  have hbase := h.base
  have hleast := h.least
  obtain ⟨d1, d2, c, hd1, hrec, hptr, hregion, hend, hdmax, hbytes⟩ := h.recovered hbuf hl hinit
  obtain ⟨ha, hl⟩ := u32_afterHeader hin (by omega) hmax
  have hafter : u32 (u.argLo.c0 + 1#32) + u32 (u.argLo.c1 - 1#32) = u.argU 0 + u.argU 1 := by omega
  have hsame : SamePayload d1.buf (u32 q.enc.outBase) (u32 c) u.buf (u.argU 0 + 1) (u.argU 0 + u.argU 1) :=
    ⟨fun k hk => by
      rw [hbytes _ (by omega) (by omega), hbase, Nat.add_assoc, Nat.add_assoc]
      exact hpayload (1 + k) (by omega), by omega, hin⟩
  have hmirrors := mirrors_start (a' := u.argLo.c0 + 1#32) (l' := u.argLo.c1 - 1#32) (hregion.trans_le hend) hdmax
    (hafter.trans_le hin) hmax (by omega) (by rw [hafter, ha]; exact hsame)
  rw [hafter, ha, ← hd1] at hmirrors
  rw [hbase] at hsame hmirrors
  exact ⟨d1.buf, d2, u32 c, hsame, ⟨d1, rfl, hrec, hmirrors⟩, hptr⟩

/-- DECOMPRESS of a payload whose items the host recovers: it completes, with the host's decoder (R370, R379). -/
theorem decompressBody_of_pending {s w : State} {f a l : Nat} {m : Buf} {qs : List (Quad Int)} (hchecked : decompressChecked s)
    (hmax : s.buf.size ≤ Config.bufSizeMax) (h6 : 6 ≤ s.argU 1) (hheader : (s.buf.byte (s.argU 0)).toNat = f) (hf : f ≤ 30)
    (hlen : qs.length = s.argU 2) (hqs : ∀ q ∈ qs, ∀ c, isSymbol (q.get c) = true)
    (hsame : SamePayload m a l s.buf (s.argU 0 + 1) (s.argU 0 + s.argU 1))
    (h : Pending m a l (s.argU 0 + 1) (s.argU 0 + s.argU 1) w (blockItems f s.pred qs)
      (decoderLoaded s.buf (s.argLo.c0 + 1#32) (s.argLo.c1 - 1#32) 5 .active)) :
    ∃ p, decompressBody s = .ok (stepsWith f s.pred qs, p) ∧ SamplesDone f (s.argU 3) 0 s.pred s.buf qs p.buf ∧
      Mirrors a l (s.argU 0 + 1) (s.argU 0 + s.argU 1) w.dec p.dec := by
  obtain ⟨hin, hsamples, hsep⟩ := hchecked
  have hinit := decInitFn_afterHeader_loaded hin h6 hmax
  have hrun := (ends_iff.1 (decInitFn_runs rfl)).1 _ hinit
  have hends := decompressSamples_of_pending (i := 0) (p := ⟨decoderLoaded s.buf (s.argLo.c0 + 1#32) (s.argLo.c1 - 1#32) 5 .active,
      s.buf⟩) hsame (fun b h1 h2 => outside_of_not_overlap hsep (by omega) h2) ((Nat.zero_add _).trans hlen).le hqs h
  have hinside := decompressSamples_insideBuf (f := f) (sa := s.argU 3) (w := s.pred) (v0 := s.pred.var)
    (p := ⟨decoderLoaded s.buf (s.argLo.c0 + 1#32) (s.argLo.c1 - 1#32) 5 .active, s.buf⟩) hsamples
    (decoderStart_ptrsInside (by omega) hin hmax).2.2 ((Nat.zero_add _).trans hlen).le ⟨hrun, id⟩ (bufKept_refl _)
  rw [decompressBody_of_header hin h6 (hheader.trans_le hf) hinit, hheader, ← hlen]
  cases hloop : decompressSamples f (s.argU 3) qs.length 0 s.pred
      ⟨decoderLoaded s.buf (s.argLo.c0 + 1#32) (s.argLo.c1 - 1#32) 5 .active, s.buf⟩ with
  | error stop =>
    rcases stop with ⟨e, site, p⟩ | b
    · exact (hends.raised _ _ _ hloop).elim
    · exact absurd hloop (hinside b)
  | ok r =>
    obtain ⟨hw, ⟨v, -, hv, hmirrors⟩, hdone⟩ := hends.ok r hloop
    cases hv
    exact ⟨r.2, congrArg Except.ok (Prod.ext hw rfl), hdone, hmirrors⟩

/-- RESULT0 of DECOMPRESS: the bytes from the header to IN_PTR (R378). -/
theorem decompress_count {s : State} {w : Predictor} {q : DecPort} (h : s.argU 0 ≤ u32 q.dec.inPtr) :
    u32 ((s.afterDecompress (w, q)).complete).result.c0 = u32 q.dec.inPtr - s.argU 0 := by
  have harg : u32 (BitVec.ofNat 32 (s.argU 0)) = s.argU 0 := u32_ofNat (u32_lt _)
  exact (u32_sub (harg.trans_le h)).trans (congrArg _ harg)

/-- Settles O60: the payload's items are recovered by the host where COMPRESS left them, and DECOMPRESS mirrors the host. -/
theorem blockRoundTrip : Obligations.BlockRoundTrip := by
  intro s t u p hbuf hubuf hs hu hpred hexec herr hn hil hchecked hpayload
  have hmax : s.buf.size ≤ Config.bufSizeMax := hbuf.2.2
  have humax : u.buf.size ≤ Config.bufSizeMax := hubuf.2.2
  have hf := profile_le s p
  cases exec_compress_next hexec with
  | notChecked => cases herr
  | smallScratch => cases herr
  | raises => cases herr
  | @completes hcompress hkc r hbody =>
    obtain ⟨w, q⟩ := r
    obtain ⟨qs, m, hqs, hlen, rfl, hoc, -, hemitted⟩ := compressBody_emitted hcompress hkc hmax hbody
    obtain ⟨e1, hinit, he1, he1buf⟩ := encodeInto_afterHeader hcompress.2.1 hoc hmax
    have hemitted := hemitted e1 he1 (congrArg _ he1buf)
    have hleast := hemitted.least
    have hcount := compress_count (s := s) (w := stepsWith (s.profile p) s.pred qs) (q := q) (by omega)
    rw [hcount] at hil hpayload
    have hsymbols := blockSymbols_isSymbol hqs
    obtain ⟨m0, w, c, hsame, hpending, hptr⟩ := hemitted.pending hbuf (blockItems_legal (f := s.profile p) (w := s.pred) hsymbols)
      hinit hchecked.1 humax hil hpayload
    have hheader : (u.buf.byte (u.argU 0)).toNat = s.profile p := by
      have hfirst : u.buf.byte (u.argU 0) = q.buf.byte (s.argU 2) := hpayload 0 (by omega)
      rw [hfirst, hemitted.header, BitVec.toNat_ofNat]
      omega
    obtain ⟨pd, hdbody, hdone, hmirrors⟩ := decompressBody_of_pending hchecked humax (by omega) hheader hf (hlen.trans hn.symm)
      hsymbols hsame (hpred ▸ hpending)
    have hsamples : pd.buf.samples (u.argU 3) (u.argU 2) 0 = reconstructions (s.profile p) s.pred qs := by
      rw [hn, ← hlen, hpred]
      exact hdone.samples
    have hdptr := hmirrors.ptr
    have hdcount := decompress_count (s := u) (w := stepsWith (s.profile p) u.pred qs) (q := pd) (by omega)
    refine ⟨(u.afterDecompress (stepsWith (s.profile p) u.pred qs, pd)).complete, qs, ?_, ?_, ?_, ?_, hqs, hsamples,
      fun i c hi => ?_⟩
    · rw [exec_decompress_of_checked hchecked, hdbody]
      rfl
    · exact hu.1
    · exact congrArg (stepsWith (s.profile p) · qs) hpred.symm
    · exact BitVec.eq_of_toNat_eq (hdcount.trans (Eq.trans (by omega) hcount.symm))
    · exact components_withinHalfAStep hf hqs (hn ▸ hsamples) hi c

end Machine
end Sys2Proof
end

section
/-! SUPPORT. What a failed COMPRESS leaves (45_block.md R363, R364, R367): phase 1 stops at the first symbol that overflows, with the
symbols before it in scratch, and phase 2 stops with every symbol in scratch and part of a payload in the output region. -/

namespace Sys2Proof
namespace Machine

/-! ## Phase 1 stops at a symbol (R363) -/

/-- A raise of phase 1 is at the channel that overflows, which stores nothing (R361, R363). -/
theorem quantChannel_raised {f ka i : Nat} {c : Fin 4} {a pr : Int} {m m' : Buf} {e : ErrorCode} {site : Site}
    (h : quantChannel f ka i c a pr m = .error (.raised e site m')) :
    quantOverflows a pr f = true ∧ site = .ofSymbol i c ∧ m' = m := by
  simp only [quantChannel] at h
  split at h
  · cases h
    exact ⟨‹_›, rfl, rfl⟩
  · cases (orNoByte_eq_error.1 (map_eq_error.1 h)).2

/-- From m to m' the first k symbols of sample i, whose components are a and predictions pr, were stored in scratch, and nothing
else. -/
structure QuantizedTo (f ka i : Nat) (pr a : Quad Int) (k : Nat) (m m' : Buf) : Prop where
  symbols : ∀ d : Fin 4, d.val < k → quantOverflows (a.get d) (pr.get d) f = false ∧
    m'.symbol ka i d = quantFn (a.get d) (pr.get d) f
  frame : ∀ b, outside b (ka + 4 * i) k → m'.byte b = m.byte b

/-- Channel c of sample i is the first to overflow, and the ones before it were stored. -/
structure OverflowsAt (f ka i : Nat) (pr a : Quad Int) (c : Fin 4) (m m' : Buf) : Prop where
  before : QuantizedTo f ka i pr a c.val m m'
  overflow : quantOverflows (a.get c) (pr.get c) f = true

theorem quantizedTo_zero (f ka i : Nat) (pr a : Quad Int) (m : Buf) : QuantizedTo f ka i pr a 0 m m :=
  ⟨fun _ hd => absurd hd (Nat.not_lt_zero _), fun _ _ => rfl⟩

theorem QuantizedTo.next {f ka i : Nat} {pr a : Quad Int} {c : Fin 4} {m m1 m2 : Buf}
    (h : QuantizedTo f ka i pr a c.val m m1) (hfits : quantOverflows (a.get c) (pr.get c) f = false)
    (k : SymbolStored ka i c (quantFn (a.get c) (pr.get c) f) m1 m2) : QuantizedTo f ka i pr a (c.val + 1) m m2 where
  symbols d hd := by
    rcases Nat.lt_or_eq_of_le (Nat.le_of_lt_succ hd) with hlt | heq
    · obtain ⟨hfits, hsymbol⟩ := h.symbols d hlt
      exact ⟨hfits, (k.other (Fin.ne_of_lt hlt)).trans hsymbol⟩
    · obtain rfl : d = c := Fin.ext heq
      exact ⟨hfits, k.value⟩
  frame b hb := by
    simp only [outside] at hb
    rw [k.frame b (by omega), h.frame b (by simp only [outside]; omega)]

/-- One channel after the channels before it. -/
theorem quantChannel_ofSample {f ka i : Nat} {pr a : Quad Int} (c : Fin 4) {m m1 : Buf}
    (h : QuantizedTo f ka i pr a c.val m m1) :
    EndsAt (fun r => QuantizedTo f ka i pr a (c.val + 1) m r.2)
      (fun _ site m' => ∃ c, site = .ofSymbol i c ∧ OverflowsAt f ka i pr a c m m')
      (quantChannel f ka i c (a.get c) (pr.get c) m1) := by
  refine ⟨fun r hr => ?_, fun e site m' hm' => ?_⟩
  · obtain ⟨hfits, -, hstored⟩ := (quantChannel_endsAt ..).ok r hr
    exact h.next hfits hstored
  · obtain ⟨hover, rfl, rfl⟩ := quantChannel_raised hm'
    exact ⟨c, rfl, h, hover⟩

theorem quantSample_raised {f sa ka i : Nat} {w : Predictor} {m m' : Buf} {e : ErrorCode} {site : Site}
    (hm : sa + 16 * i + 16 ≤ m.size) (h : quantSample f sa ka i w m = .error (.raised e site m')) :
    ∃ c, site = .ofSymbol i c ∧ OverflowsAt f ka i w.prediction (m.sample sa i) c m m' := by
  rw [quantSample_eq hm] at h
  refine EndsAt.raised (P := fun _ => True)
    (E := fun _ site m' => ∃ c, site = .ofSymbol i c ∧ OverflowsAt f ka i w.prediction (m.sample sa i) c m m') ?_ e site m' h
  exact endsAt_bind (quantChannel_ofSample 0 (quantizedTo_zero ..)) fun _ h0 => endsAt_bind (quantChannel_ofSample 1 h0) fun _ h1 =>
    endsAt_bind (quantChannel_ofSample 2 h1) fun _ h2 => endsAt_bind (quantChannel_ofSample 3 h2) fun _ _ => endsAt_ok trivial

/-- Where phase 1 raises in the samples from i on: after the samples of the symbols qs, at a channel of the next one (R363). -/
theorem quantSamples_raised {f sa ka n left i : Nat} {w : Predictor} {var : Quad Word} {m m' : Buf} {e : ErrorCode} {site : Site}
    (hi : i + left ≤ n) (hsa : sa + 16 * n ≤ m.size) (hsep : ∀ b, sa ≤ b → b < sa + 16 * n → outside b ka (4 * n))
    (h : quantSamples f sa ka left i { w with var := var } m = .error (.raised e site m')) :
    ∃ (qs : List (Quad Int)) (c : Fin 4) (m1 : Buf), qs.length < left ∧ site = .ofSymbol (i + qs.length) c ∧
      blockSymbols f w (m.samples sa qs.length i) = some qs ∧ SymbolsStored ka i qs m m1 ∧
      OverflowsAt f ka (i + qs.length) (stepsWith f w qs).prediction (m.sample sa (i + qs.length)) c m1 m' := by
  induction left generalizing i w m with
  | zero => cases h
  | succ left ih =>
    rcases bind_eq_error.1 h with h | ⟨r, hr, h⟩
    · obtain ⟨c, rfl, hover⟩ := quantSample_raised (by omega) h
      exact ⟨[], c, m, Nat.succ_pos _, rfl, rfl, symbolsStored_nil .., hover⟩
    · obtain ⟨q, hq, hw, hstored⟩ := (quantSample_endsAt (by omega)).ok r hr
      obtain ⟨_, m0⟩ := r
      obtain rfl := hw
      have hq : symbolsOf f w (m.sample sa i) = some q := hq
      obtain ⟨qs, c, m1, hlen, hsite, hqs, hrest, hover⟩ :=
        ih (w := stepWith f w q) (i := i + 1) (by omega) (hstored.size ▸ hsa) h
      have hkept (b : Nat) (h1 : sa + 16 * (i + 1) ≤ b) (h2 : b < sa + 16 * n) : m0.byte b = m.byte b := by
        have hout := hsep b (by omega) h2
        simp only [outside] at hout
        exact hstored.frame b (by simp only [outside, List.length_singleton]; omega)
      have hindex : i + 1 + qs.length = i + (q :: qs).length := by
        rw [List.length_cons]
        omega
      rw [samples_congr fun b h1 h2 => hkept b h1 (by omega)] at hqs
      rw [sample_congr fun b h1 h2 => hkept b (by omega) (by omega), hindex] at hover
      refine ⟨q :: qs, c, m1, Nat.succ_lt_succ hlen, hindex ▸ hsite, ?_, symbolsStored_cons hstored hrest, hover⟩
      rw [List.length_cons, Buf.samples, blockSymbols, hq]
      exact (congrArg (Option.map (q :: ·)) hqs :)

/-! ## Phase 2 stops with part of a payload (R367) -/

/-- The output of a phase 2 that stopped: the header F at oa, bytes after it up to OUT_PTR, and every other byte as in m. -/
structure PartlyEmitted (f oa oc : Nat) (m : Buf) (q : EncPort) : Prop where
  base : u32 q.enc.outBase = oa + 1
  least : oa < u32 q.enc.outPtr
  most : u32 q.enc.outPtr ≤ oa + oc
  header : q.buf.byte oa = BitVec.ofNat 8 f
  frame : ∀ b, outside b oa (u32 q.enc.outPtr - oa) → q.buf.byte b = m.byte b

theorem partlyEmitted_of_grows {f oa oc : Nat} {m m1 : Buf} {q : EncPort} (hoa : oa + oc ≤ m.size)
    (hmax : m.size ≤ Config.bufSizeMax) (hoc : 1 ≤ oc) (hheader : m.store oa (BitVec.ofNat 8 f) = some m1)
    (h : EncGrows ⟨encoderStart (oa + 1) (oa + oc), m1⟩ q) : PartlyEmitted f oa oc m q := by
  obtain ⟨hbase, hptr, hend, -⟩ := encoderStart_regs hoa hoc hmax
  have hleast := h.ptr
  have hmost := h.bound
  have hbytes := h.outside
  simp only [hptr, hend] at hleast hmost hbytes
  exact
    { base := (congrArg u32 h.base).trans hbase
      least := hleast
      most := by omega
      header := (hbytes oa (.inl (Nat.lt_succ_self oa))).trans (store_byte_same hheader)
      frame := fun b hb => by
        simp only [outside] at hb
        rw [← store_byte_ne hheader (by omega : b ≠ oa)]
        exact hbytes b (by omega) }

/-! ## How the phases fail -/

/-- The failures of the phases: a symbol overflows in phase 1 (R363), there is no output capacity (R361), or the payload does not fit
(R367). -/
inductive PhasesFail (p : Profile) (s : State) : ErrorCode → Site → EncPort → Prop where
  | overflows {qs : List (Quad Int)} {c : Fin 4} {m m' : Buf} (hlen : qs.length < s.argU 1)
      (hqs : blockSymbols (s.profile p) s.pred (s.buf.samples (s.argU 0) qs.length 0) = some qs)
      (hstored : SymbolsStored (s.argU 4) 0 qs s.buf m)
      (hover : OverflowsAt (s.profile p) (s.argU 4) qs.length (stepsWith (s.profile p) s.pred qs).prediction
        (s.buf.sample (s.argU 0) qs.length) c m m') : PhasesFail p s .quantOverflow (.ofSymbol qs.length c) ⟨s.enc, m'⟩
  | noOutput {qs : List (Quad Int)} {m : Buf} {site : Site} (hlen : qs.length = s.argU 1)
      (hqs : blockSymbols (s.profile p) s.pred (s.buf.samples (s.argU 0) (s.argU 1) 0) = some qs)
      (hstored : SymbolsStored (s.argU 4) 0 qs s.buf m) (hoc : s.argU 3 = 0) :
      PhasesFail p s .outputExhausted site ⟨{ s.enc with state := .failed }, m⟩
  | exhausts {qs : List (Quad Int)} {m : Buf} {site : Site} {q : EncPort} (hlen : qs.length = s.argU 1)
      (hqs : blockSymbols (s.profile p) s.pred (s.buf.samples (s.argU 0) (s.argU 1) 0) = some qs)
      (hstored : SymbolsStored (s.argU 4) 0 qs s.buf m) (hoc : 1 ≤ s.argU 3)
      (hpart : PartlyEmitted (s.profile p) (s.argU 2) (s.argU 3) m q) : PhasesFail p s .outputExhausted site q

theorem compressBody_fails {s : State} {p : Profile} {e : ErrorCode} {site : Site} {q : EncPort} (hchecked : compressChecked s)
    (hkc : 4 * s.argU 1 ≤ s.argU 5) (hmax : s.buf.size ≤ Config.bufSizeMax)
    (h : compressBody p s = .error (.raised e site q)) : PhasesFail p s e site q := by
  rcases compressBody_raised h with ⟨m', hquant, rfl⟩ | ⟨w, m, hquant, hcode⟩
  · obtain ⟨rfl, -⟩ := (ends_iff.1 (quantSamples_ends (bufKept_refl s.buf))).2 _ _ _ hquant
    obtain ⟨qs, c, m, hlen, hsite, hqs, hstored, hover⟩ := quantSamples_raised (w := s.pred) (var := s.pred.var)
      (Nat.zero_add _).le hchecked.1 (fun b h1 h2 => samples_outside_scratch hchecked hkc h1 h2) hquant
    rw [Nat.zero_add] at hsite hover
    exact hsite ▸ .overflows hlen hqs hstored hover
  · obtain ⟨qs, hqs, hlen, -, hstored⟩ := quantSamples_completed hchecked hkc hquant
    have hsize := hstored.size
    obtain ⟨rfl, ⟨hoc, rfl⟩ | ⟨hoc, m1, hheader, hgrows⟩⟩ := entropyCode_raised hcode
    · exact .noOutput hlen hqs hstored hoc
    · exact .exhausts hlen hqs hstored hoc
        (partlyEmitted_of_grows (hsize ▸ hchecked.2.1) (hsize ▸ hmax) hoc hheader hgrows)

/-- Symbols in scratch stay there while the scratch bytes do. -/
theorem symbols_of_stored {ka : Nat} {qs : List (Quad Int)} {m m' m'' : Buf} (h : SymbolsStored ka 0 qs m m')
    (hkept : ∀ b, ka ≤ b → b < ka + 4 * qs.length → m''.byte b = m'.byte b) (j : Nat) (q : Quad Int) (hj : qs[j]? = some q)
    (c : Fin 4) : m''.symbol ka j c = q.get c := by
  have hj' := (List.getElem?_eq_some_iff.1 hj).1
  have hsymbol := h.symbols j q hj c
  rw [Nat.zero_add, Buf.symbol] at hsymbol
  rw [Buf.symbol, hkept _ (by omega) (by omega), hsymbol]

/-- The scratch bytes stay as phase 1 left them. -/
theorem PartlyEmitted.scratch {s : State} {f : Nat} {m : Buf} {q : EncPort} (hchecked : compressChecked s)
    (hkc : 4 * s.argU 1 ≤ s.argU 5) (h : PartlyEmitted f (s.argU 2) (s.argU 3) m q) {b : Nat} (h1 : s.argU 4 ≤ b)
    (h2 : b < s.argU 4 + 4 * s.argU 1) : q.buf.byte b = m.byte b := by
  have hout := scratch_outside_output hchecked hkc h1 h2
  have hmost := h.most
  simp only [outside] at hout
  exact h.frame b (by simp only [outside]; omega)

/-- Settles O56: the phases' failures, each with its frame; the checks' errors change no byte. -/
theorem compressFailure : Obligations.CompressFailure := by
  intro s t p hbuf hs hexec hfailed
  have hmax : s.buf.size ≤ Config.bufSizeMax := hbuf.2.2
  cases exec_compress_next hexec with
  | notChecked => exact ⟨rfl, rfl, rfl, rfl, fun hcode => (by cases hcode), fun hcode => by cases hcode⟩
  | smallScratch => exact ⟨rfl, rfl, rfl, rfl, fun hcode => (by cases hcode), fun hcode => by cases hcode⟩
  | completes => cases hs.1.symm.trans hfailed
  | raises hchecked hkc hbody =>
    obtain ⟨henc, -, -⟩ := coderReport_next hs hexec
    refine ⟨rfl, rfl, rfl, rfl, ?_⟩
    cases compressBody_fails hchecked hkc hmax hbody with
    | @overflows qs c m m' hlen hqs hstored hover =>
      refine ⟨fun _ => ?_, fun hcode => by cases hcode⟩
      have hsample : u32 (BitVec.ofNat 32 qs.length) = qs.length := u32_ofNat (hlen.trans (u32_lt _))
      have hchan : u32 (BitVec.ofNat 32 c.val) = c.val := u32_ofNat (by omega)
      obtain ⟨hsymbols, hframe⟩ := hover.before
      simp only [raiseError_errSample, raiseError_errChan, Site.ofSymbol, hsample, hchan]
      refine ⟨rfl, ⟨qs, hqs, symbols_of_stored hstored fun b h1 h2 => hframe b (.inl h2), fun d => ⟨hsymbols d, fun hd => ?_⟩⟩,
        fun b hb => ?_⟩
      · obtain rfl : d = c := Fin.ext hd
        exact hover.overflow
      · simp only [outside] at hb
        exact (hframe b (by simp only [outside]; omega)).trans (hstored.frame b (by simp only [outside]; omega))
    | @noOutput qs m site hlen hqs hstored hoc =>
      refine ⟨fun hcode => (by cases hcode), fun _ => ⟨rfl, ⟨qs, hqs, symbols_of_stored hstored fun _ _ _ => rfl⟩,
        fun _ => ⟨rfl, fun b hb => hstored.frame b (hlen ▸ hb)⟩, fun h1 => ?_⟩⟩
      omega
    | @exhausts qs m site q hlen hqs hstored hoc hpart =>
      refine ⟨fun hcode => (by cases hcode), fun _ => ⟨henc, ⟨qs, hqs, symbols_of_stored hstored fun b h1 h2 => ?_⟩,
        fun h0 => ?_, fun _ => ⟨hpart.header, hpart.base, hpart.least, hpart.most, fun b hscratch hout => ?_⟩⟩⟩
      · exact hpart.scratch hchecked hkc h1 (hlen ▸ h2)
      · omega
      · exact (hpart.frame b hout).trans (hstored.frame b (hlen ▸ hscratch))

end Machine
end Sys2Proof
end

section
/-! SUPPORT. COMPRESS once more (45_block.md R381): from two BUFs that agree on what COMPRESS reads, its functions write the same bytes
to the same addresses and end alike, whether they complete or raise. Bytes that are written again leave BUF as it was, as data. -/

namespace Sys2Proof
namespace Machine

/-! ## The same writes to two BUFs -/

/-- m' is m with the bytes of W stored in it. -/
structure Overlay (W : Nat → Option Byte) (m m' : Buf) : Prop where
  kept : BufKept m m'
  cells : ∀ b, findCell m'.cells b = (W b).or (findCell m.cells b)

/-- From (m, n) to (m', n') the same bytes were stored in both. -/
structure SameWrites (m n m' n' : Buf) : Prop where
  size : n'.size = m'.size
  writes : ∃ W, Overlay W m m' ∧ Overlay W n n'

theorem overlay_none (m : Buf) : Overlay (fun _ => none) m m := ⟨bufKept_refl m, fun _ => rfl⟩

theorem overlay_trans {V W : Nat → Option Byte} {m m' m'' : Buf} (h : Overlay V m m') (k : Overlay W m' m'') :
    Overlay (fun b => (W b).or (V b)) m m'' :=
  ⟨bufKept_trans h.kept k.kept, fun b => by rw [k.cells, h.cells, Option.or_assoc]⟩

theorem overlay_store {m m' : Buf} {a : Nat} {v : Byte} (h : m.store a v = some m') :
    Overlay (fun b => if b = a then some v else none) m m' := by
  refine ⟨store_bufKept h, fun b => ?_⟩
  obtain ⟨-, rfl⟩ := store_eq_some h
  split
  · subst b
    exact findCell_storeCell_same ..
  · exact findCell_storeCell_ne _ _ ‹_›

theorem Overlay.byte {W : Nat → Option Byte} {m m' : Buf} (h : Overlay W m m') (b : Nat) :
    m'.byte b = (W b).getD (m.byte b) := by
  rw [Buf.byte, h.cells, Buf.unlisted, h.kept.resets, Buf.byte, Buf.unlisted]
  cases W b <;> rfl

/-- Bytes that are stored again change nothing: equal contents are equal data. -/
theorem Overlay.again {W : Nat → Option Byte} {m m' m'' : Buf} (h : Overlay W m m') (k : Overlay W m' m'') (hw : m'.wf = true) :
    m'' = m' := by
  obtain ⟨⟨hsize, hresets, hwf⟩, hcells⟩ := k
  have hpairs := ((cellsWf_iff _ _).1 hw).1
  have hpairs' := ((cellsWf_iff _ _).1 (hwf hw)).1
  have heq : m''.cells = m'.cells := cells_ext hpairs' hpairs fun b => by
    rw [hcells, h.cells, ← Option.or_assoc, Option.or_self]
  cases m''
  cases m'
  cases hsize
  cases hresets
  cases heq
  rfl

theorem sameWrites_start {m n : Buf} (h : n.size = m.size) : SameWrites m n m n := ⟨h, _, overlay_none m, overlay_none n⟩

theorem sameWrites_trans {m n m' n' m'' n'' : Buf} (h : SameWrites m n m' n') (k : SameWrites m' n' m'' n'') :
    SameWrites m n m'' n'' := by
  obtain ⟨-, V, hm, hn⟩ := h
  obtain ⟨hsize, W, hm', hn'⟩ := k
  exact ⟨hsize, _, overlay_trans hm hm', overlay_trans hn hn'⟩

theorem SameWrites.store {m n m' n' m'' n'' : Buf} {a : Nat} {v : Byte} (h : SameWrites m n m' n')
    (hm : m'.store a v = some m'') (hn : n'.store a v = some n'') : SameWrites m n m'' n'' :=
  sameWrites_trans h ⟨(store_size hn).trans (h.size.trans (store_size hm).symm), _, overlay_store hm, overlay_store hn⟩

theorem SameWrites.size_eq {m n m' n' : Buf} (h : SameWrites m n m' n') : m'.size = m.size := by
  obtain ⟨-, W, hm, -⟩ := h
  exact hm.kept.size

/-- Where the two agreed before, they agree after. -/
theorem SameWrites.byte {m n m' n' : Buf} (h : SameWrites m n m' n') {b : Nat} (hb : n.byte b = m.byte b) :
    n'.byte b = m'.byte b := by
  obtain ⟨-, W, hm, hn⟩ := h
  rw [hm.byte, hn.byte, hb]

/-- Where the second held already what the first holds after, they agree after. -/
theorem SameWrites.byte_of_result {m n m' n' : Buf} (h : SameWrites m n m' n') {b : Nat} (hb : n.byte b = m'.byte b) :
    n'.byte b = m'.byte b := by
  obtain ⟨-, W, hm, hn⟩ := h
  rw [hn.byte, hb, hm.byte]
  cases W b <;> rfl

theorem SameWrites.again {m m' n' : Buf} (h : SameWrites m m' m' n') (hw : m'.wf = true) : n' = m' := by
  obtain ⟨-, W, hm, hn⟩ := h
  exact hm.again hn hw

/-! ## Two computations that end alike -/

/-- If x completes so does x', and if x raises so does x', with the same code and site and with related answers and states. -/
structure Repeats {π α : Type} (Q : α → α → Prop) (R : π → π → Prop) (x x' : Except (Stop π) α) : Prop where
  ok : ∀ a, x = .ok a → ∃ a', x' = .ok a' ∧ Q a a'
  raised : ∀ e site p, x = .error (.raised e site p) → ∃ p', x' = .error (.raised e site p') ∧ R p p'

section
variable {π α β : Type} {P Q : α → α → Prop} {S : β → β → Prop} {R : π → π → Prop} {x x' : Except (Stop π) α}

theorem repeats_ok {a a' : α} (h : Q a a') : Repeats Q R (.ok a) (.ok a') :=
  ⟨fun _ hb => by cases hb; exact ⟨a', rfl, h⟩, fun _ _ _ hb => by cases hb⟩

theorem repeats_raised {e : ErrorCode} {site : Site} {p p' : π} (h : R p p') :
    Repeats Q R (.error (.raised e site p)) (.error (.raised e site p')) :=
  ⟨fun _ hb => (by cases hb), fun _ _ _ hb => by cases hb; exact ⟨p', rfl, h⟩⟩

theorem repeats_bind {f f' : α → Except (Stop π) β} (h : Repeats Q R x x') (k : ∀ a a', Q a a' → Repeats S R (f a) (f' a')) :
    Repeats S R (x.bind f) (x'.bind f') := by
  refine ⟨fun b hb => ?_, fun e site p hp => ?_⟩
  · obtain ⟨a, ha, hb⟩ := bind_eq_ok.1 hb
    obtain ⟨a', rfl, hq⟩ := h.ok a ha
    exact (k a a' hq).ok b hb
  · rcases bind_eq_error.1 hp with hx | ⟨a, ha, hp⟩
    · obtain ⟨p', rfl, hr⟩ := h.raised e site p hx
      exact ⟨p', rfl, hr⟩
    · obtain ⟨a', rfl, hq⟩ := h.ok a ha
      exact (k a a' hq).raised e site p hp

theorem repeats_map {g g' : α → β} (h : Repeats Q R x x') (k : ∀ a a', Q a a' → S (g a) (g' a')) :
    Repeats S R (x.map g) (x'.map g') :=
  repeats_bind (f := fun a => .ok (g a)) (f' := fun a => .ok (g' a)) h fun a a' hq => repeats_ok (k a a' hq)

/-- The same access in both. -/
theorem repeats_load {addr : Nat} (o : Option α) : Repeats Eq R (orNoByte addr o) (orNoByte addr o) := by
  cases o with
  | none => exact ⟨fun _ h => (by cases h), fun _ _ _ h => by cases h⟩
  | some a => exact repeats_ok rfl

theorem repeats_store {m n m' n' : Buf} (h : SameWrites m n m' n') (a : Nat) (v : Byte) :
    Repeats (SameWrites m n) R (orNoByte a (m'.store a v)) (orNoByte a (n'.store a v)) := by
  refine ⟨fun m'' hm => ?_, fun e site p hp => ?_⟩
  · have hm := orNoByte_eq_ok.1 hm
    have hn := store_of_lt (m := n') v (h.size.trans_gt (store_eq_some hm).1)
    exact ⟨_, orNoByte_eq_ok.2 hn, h.store hm hn⟩
  · cases (orNoByte_eq_error.1 hp).2

end

/-! ## The range encoder -/

/-- The encoder's two runs: the same registers, and the same bytes written since m and n. -/
structure EncAlike (m n : Buf) (p p' : EncPort) : Prop where
  enc : p'.enc = p.enc
  buf : SameWrites m n p.buf p'.buf

section
variable {m n : Buf} {site : Site} {p p' : EncPort} (h : EncAlike m n p p')
include h

theorem EncAlike.update (g : Encoder → Encoder) :
    EncAlike m n { p with enc := g p.enc } { p' with enc := g p'.enc } := ⟨congrArg g h.enc, h.buf⟩

theorem putByte_repeats (v : Byte) : Repeats (EncAlike m n) (EncAlike m n) (putByte site v p) (putByte site v p') := by
  unfold putByte
  rw [h.enc]
  split
  · exact repeats_raised ⟨rfl, h.buf⟩
  · exact repeats_map (repeats_store h.buf _ v) fun _ _ hb => ⟨rfl, hb⟩

theorem countDown_alike : EncAlike m n p.countDown p'.countDown := h.update fun e => { e with csize := e.csize - 1#32 }

theorem holdTop_repeats : Repeats (EncAlike m n) (EncAlike m n) (holdTop site p) (holdTop site p') := by
  unfold holdTop
  rw [h.enc]
  split
  · exact repeats_raised ⟨rfl, h.buf⟩
  · exact repeats_ok ⟨rfl, h.buf⟩

end

theorem putHeld_repeats {m n : Buf} {site : Site} (carry : Byte) (k : Nat) (temp : Byte) {p p' : EncPort} (h : EncAlike m n p p') :
    Repeats (EncAlike m n) (EncAlike m n) (putHeld site carry k temp p) (putHeld site carry k temp p') := by
  induction k generalizing temp p p' with
  | zero => exact repeats_map (putByte_repeats h _) fun _ _ => countDown_alike
  | succ k ih => exact repeats_bind (putByte_repeats h _) fun _ _ hq => ih _ (countDown_alike hq)

theorem shiftLow_repeats {m n : Buf} {site : Site} {p p' : EncPort} (h : EncAlike m n p p') :
    Repeats (EncAlike m n) (EncAlike m n) (shiftLow site p) (shiftLow site p') := by
  unfold shiftLow releaseHeld
  rw [h.enc]
  split
  · exact repeats_bind (repeats_map (putHeld_repeats _ _ _ h) fun _ _ hq =>
      hq.update fun e => { e with cache := BitVec.ofNat 8 (e.low.toNat / 2 ^ 24) }) fun _ _ => holdTop_repeats
  · exact holdTop_repeats h

theorem encRenorm_repeats {m n : Buf} {site : Site} (k : Nat) {p p' : EncPort} (h : EncAlike m n p p') :
    Repeats (EncAlike m n) (EncAlike m n) (encRenorm site k p) (encRenorm site k p') := by
  induction k generalizing p p' with
  | zero => exact repeats_ok h
  | succ k ih =>
    have hshift := h.update fun e => { e with range := e.range <<< 8 }
    simp only [encRenorm, h.enc] at hshift ⊢
    split
    · exact repeats_bind (shiftLow_repeats hshift) fun _ _ => ih
    · exact repeats_ok h

theorem encodeFn_repeats {m n : Buf} {site : Site} (cum fr : Nat) {p p' : EncPort} (h : EncAlike m n p p') :
    Repeats (EncAlike m n) (EncAlike m n) (encodeFn site cum fr p) (encodeFn site cum fr p') := by
  have hnarrow : EncAlike m n (encNarrow cum fr p) (encNarrow cum fr p') :=
    h.update fun e => { e with low := BitVec.ofNat 33 (e.low.toNat + u32 e.range / 2 ^ 15 * cum),
                               range := BitVec.ofNat 32 (u32 e.range / 2 ^ 15 * fr) }
  have hbound : encPassBound (encNarrow cum fr p') = encPassBound (encNarrow cum fr p) := by
    rw [encPassBound, hnarrow.enc, encPassBound]
  rw [encodeFn, encodeFn, hbound]
  exact encRenorm_repeats _ hnarrow

theorem flushFn_repeats {m n : Buf} {site : Site} {p p' : EncPort} (h : EncAlike m n p p') :
    Repeats (EncAlike m n) (EncAlike m n) (flushFn site p) (flushFn site p') :=
  have next := fun _ _ => shiftLow_repeats (m := m) (n := n) (site := site)
  repeats_bind (repeats_bind (repeats_bind (repeats_bind (shiftLow_repeats h) next) next) next) next

/-! ## Phase 1 -/

/-- Phase 1's two runs: the same answer, and the same bytes written since m and n. -/
def BufAlike {α : Type} (m n : Buf) (r r' : α × Buf) : Prop := r'.1 = r.1 ∧ SameWrites m n r.2 r'.2

theorem quantChannel_repeats {m n m' n' : Buf} (h : SameWrites m n m' n') (f ka i : Nat) (c : Fin 4) (a pr : Int) :
    Repeats (BufAlike m n) (SameWrites m n) (quantChannel f ka i c a pr m') (quantChannel f ka i c a pr n') := by
  unfold quantChannel
  simp only
  split
  · exact repeats_raised h
  · exact repeats_map (repeats_store h _ _) fun _ _ hb => ⟨rfl, hb⟩

section
variable {m n : Buf} {sa k : Nat} (hsa : sa + 16 * k ≤ m.size) (hread : ∀ b, sa ≤ b → b < sa + 16 * k → n.byte b = m.byte b)
include hsa hread

theorem quantSample_repeats {m' n' : Buf} {f ka i : Nat} {w : Predictor} (hi : i < k) (h : SameWrites m n m' n') :
    Repeats (BufAlike m n) (SameWrites m n) (quantSample f sa ka i w m') (quantSample f sa ka i w n') := by
  have hsize := h.size
  have hsize' := h.size_eq
  have hsample : n'.sample sa i = m'.sample sa i := sample_congr fun b h1 h2 => h.byte (hread b (by omega) (by omega))
  rw [quantSample_eq (by omega), quantSample_eq (by omega), hsample]
  refine repeats_bind (quantChannel_repeats h ..) ?_
  rintro ⟨r0, _⟩ ⟨_, _⟩ ⟨rfl, h0⟩
  refine repeats_bind (quantChannel_repeats h0 ..) ?_
  rintro ⟨r1, _⟩ ⟨_, _⟩ ⟨rfl, h1⟩
  refine repeats_bind (quantChannel_repeats h1 ..) ?_
  rintro ⟨r2, _⟩ ⟨_, _⟩ ⟨rfl, h2⟩
  refine repeats_bind (quantChannel_repeats h2 ..) ?_
  rintro ⟨r3, _⟩ ⟨_, _⟩ ⟨rfl, h3⟩
  exact repeats_ok ⟨rfl, h3⟩

/-- Phase 1 repeats itself on a BUF with the same samples (R362). -/
theorem quantSamples_repeats {m' n' : Buf} {f ka left i : Nat} {w : Predictor} (hi : i + left ≤ k) (h : SameWrites m n m' n') :
    Repeats (BufAlike m n) (SameWrites m n) (quantSamples f sa ka left i w m') (quantSamples f sa ka left i w n') := by
  induction left generalizing i w m' n' with
  | zero => exact repeats_ok ⟨rfl, h⟩
  | succ left ih =>
    refine repeats_bind (quantSample_repeats hsa hread (by omega) h) ?_
    rintro ⟨w', _⟩ ⟨_, _⟩ ⟨rfl, h'⟩
    exact ih (by omega) h'

end

/-! ## Phase 2 -/

/-- Phase 2's two runs: the same estimates, and encoders alike. -/
def CodingAlike (m n : Buf) (r r' : Quad Word × EncPort) : Prop := r'.1 = r.1 ∧ EncAlike m n r.2 r'.2

section
variable {m n : Buf} {ka k : Nat} (hread : ∀ b, ka ≤ b → b < ka + 4 * k → n.byte b = m.byte b)
include hread

theorem encodeChannel_repeats {i : Nat} (c : Fin 4) {r r' : Quad Word × EncPort} (hi : i < k) (h : CodingAlike m n r r') :
    Repeats (CodingAlike m n) (EncAlike m n) (encodeChannel ka i c r.1 r.2) (encodeChannel ka i c r'.1 r'.2) := by
  obtain ⟨var, p⟩ := r
  obtain ⟨_, p'⟩ := r'
  obtain ⟨rfl, h⟩ := h
  have hload : p'.buf.load (ka + 4 * i + c.val) = p.buf.load (ka + 4 * i + c.val) := by
    rw [Buf.load, Buf.load, h.buf.size, h.buf.byte (hread _ (by omega) (by omega))]
  unfold encodeChannel
  rw [hload]
  refine repeats_bind (repeats_load _) ?_
  rintro byte _ rfl
  exact repeats_bind (encodeFn_repeats _ _ h) fun _ _ hq => repeats_ok ⟨rfl, hq⟩

theorem encodeSample_repeats {i : Nat} {r r' : Quad Word × EncPort} (hi : i < k) (h : CodingAlike m n r r') :
    Repeats (CodingAlike m n) (EncAlike m n) (encodeSample ka i r.1 r.2) (encodeSample ka i r'.1 r'.2) :=
  repeats_bind (encodeChannel_repeats hread 0 hi h) fun _ _ h0 => repeats_bind (encodeChannel_repeats hread 1 hi h0) fun _ _ h1 =>
    repeats_bind (encodeChannel_repeats hread 2 hi h1) fun _ _ h2 => encodeChannel_repeats hread 3 hi h2

theorem encodeSamples_repeats {left i : Nat} {r r' : Quad Word × EncPort} (hi : i + left ≤ k) (h : CodingAlike m n r r') :
    Repeats (CodingAlike m n) (EncAlike m n) (encodeSamples ka left i r.1 r.2) (encodeSamples ka left i r'.1 r'.2) := by
  induction left generalizing i r r' with
  | zero => exact repeats_ok h
  | succ left ih => exact repeats_bind (encodeSample_repeats hread (by omega) h) fun _ _ h' => ih (by omega) h'

/-- Phase 2 repeats itself on a BUF with the same symbols in scratch (R364, R365). It starts the encoder anew, unless there is no output
capacity, which leaves but ENC_STATE. -/
theorem entropyCode_repeats {f oa oc : Nat} {var : Quad Word} {e e' : Encoder} (hsize : n.size = m.size)
    (he : oc = 0 → { e' with state := .failed } = { e with state := .failed }) :
    Repeats (CodingAlike m n) (EncAlike m n) (entropyCode f ka k oa oc var ⟨e, m⟩) (entropyCode f ka k oa oc var ⟨e', n⟩) := by
  have hstart := sameWrites_start hsize
  rcases Nat.eq_zero_or_pos oc with hoc | hoc
  · rw [entropyCode_of_no_output hoc, entropyCode_of_no_output hoc]
    exact repeats_raised ⟨he hoc, hstart⟩
  · unfold entropyCode
    rw [if_neg (Nat.not_lt.2 hoc), if_neg (Nat.not_lt.2 hoc)]
    refine repeats_bind (repeats_store hstart oa _) fun m1 n1 h1 => ?_
    refine repeats_bind (encodeSamples_repeats hread (r := (var, ⟨encoderStart (oa + 1) (oa + oc), m1⟩))
      (r' := (var, ⟨encoderStart (oa + 1) (oa + oc), n1⟩)) (Nat.zero_add k).le ⟨rfl, rfl, h1⟩) ?_
    rintro ⟨var', p⟩ ⟨_, p'⟩ ⟨rfl, hp⟩
    exact repeats_bind (flushFn_repeats hp) fun _ _ hq => repeats_ok ⟨rfl, hq.update fun e => { e with state := .flushed }⟩

end

/-! ## The command again -/

/-- What a failed COMPRESS left of the samples is what it read (R363, R364). -/
theorem PhasesFail.samples_kept {p : Profile} {s : State} {e : ErrorCode} {site : Site} {q : EncPort}
    (h : PhasesFail p s e site q) (hchecked : compressChecked s) (hkc : 4 * s.argU 1 ≤ s.argU 5) {b : Nat}
    (h1 : s.argU 0 ≤ b) (h2 : b < s.argU 0 + 16 * s.argU 1) : q.buf.byte b = s.buf.byte b := by
  have hscratch := samples_outside_scratch hchecked hkc h1 h2
  simp only [outside] at hscratch
  cases h with
  | @overflows qs c m m' hlen hqs hstored hover =>
    exact (hover.before.frame b (by simp only [outside]; omega)).trans (hstored.frame b (by simp only [outside]; omega))
  | noOutput hlen hqs hstored hoc => exact hstored.frame b (by simp only [outside]; omega)
  | exhausts hlen hqs hstored hoc hpart =>
    obtain ⟨-, -, -, hsep, -⟩ := hchecked
    have hout := outside_of_not_overlap hsep h1 h2
    have hmost := hpart.most
    simp only [outside] at hout
    exact (hpart.frame b (by simp only [outside]; omega)).trans (hstored.frame b (by simp only [outside]; omega))

/-- From what a failed COMPRESS left, its phases fail in the same way and leave the same (R381). -/
theorem compressBody_again {s : State} {p : Profile} {e : ErrorCode} {site : Site} {q : EncPort} (hbuf : s.buf.Inv)
    (hchecked : compressChecked s) (hkc : 4 * s.argU 1 ≤ s.argU 5) (h : compressBody p s = .error (.raised e site q)) :
    compressBody p (s.withEncPort q) = .error (.raised e site q) := by
  have hmax : s.buf.size ≤ Config.bufSizeMax := hbuf.2.2
  obtain ⟨-, hkept, -⟩ := (ends_iff.1 (compressBody_ends hchecked.2.1)).2 _ _ _ h
  have hkept : BufKept s.buf q.buf := hkept
  have hwf := hkept.wf hbuf.1
  have hsamples (b : Nat) := (compressBody_fails hchecked hkc hmax h).samples_kept (b := b) hchecked hkc
  have hphase1 := quantSamples_repeats (f := s.profile p) (ka := s.argU 4) (w := s.pred) hchecked.1 hsamples (Nat.zero_add _).le
    (sameWrites_start hkept.size)
  rw [compressBody_eq]
  rcases compressBody_raised h with ⟨m, hquant, rfl⟩ | ⟨w, m, hquant, hcode⟩
  · obtain ⟨m', hquant', hwrites⟩ := hphase1.raised _ _ _ hquant
    obtain rfl := hwrites.again hwf
    exact bind_eq_error.2 (.inl (liftStop_eq_error.2 ⟨_, hquant', rfl⟩))
  · obtain ⟨⟨w', m'⟩, hquant', hw, hwrites⟩ := hphase1.ok _ hquant
    obtain rfl : w' = w := hw
    have hsize := hwrites.size_eq
    have hend : (∀ b, s.argU 4 ≤ b → b < s.argU 4 + 4 * s.argU 1 → q.buf.byte b = m.byte b) ∧
        (s.argU 3 = 0 → { q.enc with state := .failed } = { s.enc with state := .failed }) := by
      obtain ⟨-, ⟨hoc, rfl⟩ | ⟨hoc, m1, hheader, hgrows⟩⟩ := entropyCode_raised hcode
      · exact ⟨fun _ _ _ => rfl, fun _ => rfl⟩
      · have hpart := partlyEmitted_of_grows (hsize ▸ hchecked.2.1) (hsize ▸ hmax) hoc hheader hgrows
        exact ⟨fun b => hpart.scratch hchecked hkc, fun h0 => by omega⟩
    obtain ⟨hscratch, henc⟩ := hend
    have hphase2 := entropyCode_repeats (f := s.profile p) (ka := s.argU 4) (k := s.argU 1) (oa := s.argU 2) (oc := s.argU 3)
      (var := w'.var) (fun b h1 h2 => hwrites.byte_of_result (hscratch b h1 h2)) hwrites.size henc
    obtain ⟨q', hcode', hq', hwrites'⟩ := hphase2.raised _ _ _ hcode
    have hqbuf := (sameWrites_trans hwrites hwrites').again hwf
    obtain rfl : q' = q := by
      cases q
      cases q'
      cases hq'
      cases hqbuf
      rfl
    exact bind_eq_error.2 (.inr ⟨_, liftStop_eq_ok.2 hquant', bind_eq_error.2 (.inl hcode')⟩)

/-- Settles O57: a failed check fails again, and failed phases repeat themselves write for write. -/
theorem failedCompressCanBeRetried : Obligations.FailedCompressCanBeRetried := by
  intro s t p hbuf hs hexec hfailed
  cases exec_compress_next hexec with
  | notChecked hchecked => exact ⟨rfl, exec_compress_of_not_checked hchecked⟩
  | smallScratch hchecked hkc => exact ⟨rfl, exec_compress_of_small_scratch hchecked hkc⟩
  | completes => cases hs.1.symm.trans hfailed
  | @raises hchecked hkc e site q hbody =>
    refine ⟨rfl, ?_⟩
    obtain ⟨-, hkept, -⟩ := (ends_iff.1 (compressBody_ends hchecked.2.1)).2 _ _ _ hbody
    have hsize : q.buf.size = s.buf.size := hkept.size
    have hchecked' : compressChecked (s.withEncPort q) := by
      rw [compressChecked] at hchecked ⊢
      exact hsize ▸ hchecked
    have hbody' := compressBody_again hbuf hchecked hkc hbody
    refine (exec_compress_of_checked (s := ((s.withEncPort q).raiseError e site).accept s.latch) hchecked' hkc).trans ?_
    exact congrArg (outcomeOf _ _) hbody'

end Machine
end Sys2Proof
end

section
/-! SUPPORT. The errors of the core (60_exceptions.md R400, R402): what each function raises and at which site, followed through
the loops of the block commands, and from that the error of every command; an illegal word's error is the engine's own. -/

namespace Sys2Proof
namespace Machine

/-! ## Codes and sites -/

/-- A computation raises nothing but the codes at the sites that E allows. -/
def RaisesAt {π α : Type} (E : ErrorCode → Site → Prop) (x : Except (Stop π) α) : Prop :=
  EndsAt (fun _ => True) (fun e site _ => E e site) x

section
variable {π ρ α β : Type} {E F : ErrorCode → Site → Prop} {x : Except (Stop π) α}

theorem raisesAt_ok (a : α) : RaisesAt E (.ok a : Except (Stop π) α) := endsAt_ok trivial

theorem raisesAt_raised {e : ErrorCode} {site : Site} (p : π) (h : E e site) :
    RaisesAt E (.error (.raised e site p) : Except (Stop π) α) :=
  ⟨fun _ _ => trivial, fun _ _ _ he => by cases he; exact h⟩

theorem raisesAt_mono (h : RaisesAt E x) (herr : ∀ e site, E e site → F e site) : RaisesAt F x :=
  endsAt_mono h (fun _ ha => ha) fun e site _ => herr e site

theorem raisesAt_bind {f : α → Except (Stop π) β} (h : RaisesAt E x) (k : ∀ a, RaisesAt E (f a)) : RaisesAt E (x.bind f) :=
  endsAt_bind h fun a _ => k a

theorem raisesAt_map {f : α → β} (h : RaisesAt E x) : RaisesAt E (x.map f) :=
  ⟨fun _ _ => trivial, fun e site p hp => h.raised e site p (map_eq_error.1 hp)⟩

theorem raisesAt_liftStop {f : π → ρ} (h : RaisesAt E x) : RaisesAt E (liftStop f x) := endsAt_liftStop h

theorem raisesAt_of_ends (h : Ends (fun _ => True) (fun _ _ => False) x) : RaisesAt E x := endsAt_of_ends h

theorem raisesAt_orNoByte (addr : Nat) (o : Option α) : RaisesAt E (orNoByte addr o : Except (Stop π) α) :=
  raisesAt_of_ends (ends_orNoByte fun _ _ => trivial)

end

/-! ## The coder functions -/

/-- The one error of a coder function: its exhaustion, at the site that its caller gives (R282, R298). -/
def OnlyAt (code : ErrorCode) (site : Site) (e : ErrorCode) (site' : Site) : Prop := e = code ∧ site' = site

theorem raisesAt_of_encStops {α : Type} {site : Site} {p : EncPort} {x : Except (Stop EncPort) α}
    (h : ∀ e, x = .error e → EncStops site p e) : RaisesAt (OnlyAt .outputExhausted site) x :=
  ⟨fun _ _ => trivial, fun e site' q hq => ⟨(h (.raised e site' q) hq).1, (h (.raised e site' q) hq).2.1⟩⟩

theorem raisesAt_of_decStops {α : Type} {site : Site} {m : Buf} {d : Decoder} {x : Except (Stop Decoder) α}
    (h : ∀ e, x = .error e → DecStops site m d e) : RaisesAt (OnlyAt .inputExhausted site) x :=
  ⟨fun _ _ => trivial, fun e site' q hq => ⟨(h (.raised e site' q) hq).1, (h (.raised e site' q) hq).2.1⟩⟩

theorem encodeFn_raisesAt (site : Site) (cum fr : Nat) (p : EncPort) :
    RaisesAt (OnlyAt .outputExhausted site) (encodeFn site cum fr p) := raisesAt_of_encStops fun _ => encodeFn_stops

theorem flushFn_raisesAt (site : Site) (p : EncPort) : RaisesAt (OnlyAt .outputExhausted site) (flushFn site p) :=
  raisesAt_of_encStops fun _ => flushFn_stops

theorem decInitFn_raisesAt (site : Site) (m : Buf) (d : Decoder) : RaisesAt (OnlyAt .inputExhausted site) (decInitFn site m d) :=
  raisesAt_of_decStops fun _ => decInitFn_stops

theorem consumeFn_raisesAt (site : Site) (m : Buf) (cum fr : Nat) (d : Decoder) :
    RaisesAt (OnlyAt .inputExhausted site) (consumeFn site m cum fr d) := raisesAt_of_decStops fun _ => consumeFn_stops

theorem decodeSymbol_raisesAt (site : Site) (m : Buf) (b : Bucket) (d : Decoder) :
    RaisesAt (OnlyAt .inputExhausted site) (decodeSymbol site m b d) := raisesAt_map (consumeFn_raisesAt ..)

/-! ## The loops of the block commands -/

/-- The code, at a symbol of one of the n samples from sample i on: the (i, c) of R400. -/
def AtSymbolOf (code : ErrorCode) (i n : Nat) (e : ErrorCode) (site : Site) : Prop :=
  e = code ∧ ∃ j c, i ≤ j ∧ j < i + n ∧ site = .ofSymbol j c

theorem atSymbolOf_mono {code e : ErrorCode} {i n i' n' : Nat} {site : Site} (hi : i' ≤ i) (hn : i + n ≤ i' + n')
    (h : AtSymbolOf code i n e site) : AtSymbolOf code i' n' e site := by
  obtain ⟨he, j, c, h1, h2, hsite⟩ := h
  exact ⟨he, j, c, by omega, by omega, hsite⟩

theorem onlyAt_atSymbolOf {code e : ErrorCode} {i : Nat} {c : Fin 4} {site : Site} (h : OnlyAt code (.ofSymbol i c) e site) :
    AtSymbolOf code i 1 e site := ⟨h.1, i, c, Nat.le_refl i, Nat.lt_succ_self i, h.2⟩

/-- A loop over the samples raises at a symbol of a sample if each of its passes does at one of its own sample. -/
theorem sampleLoop_raisesAt {π α : Type} {code : ErrorCode} {pass : Nat → α → Except (Stop π) α}
    {loop : (left i : Nat) → α → Except (Stop π) α} (hzero : ∀ i a, loop 0 i a = .ok a)
    (hsucc : ∀ left i a, loop (left + 1) i a = (pass i a).bind (loop left (i + 1)))
    (h : ∀ i a, RaisesAt (AtSymbolOf code i 1) (pass i a)) (left i : Nat) (a : α) :
    RaisesAt (AtSymbolOf code i left) (loop left i a) := by
  induction left generalizing i a with
  | zero => exact hzero i a ▸ raisesAt_ok a
  | succ left ih =>
    rw [hsucc]
    exact raisesAt_bind (raisesAt_mono (h i a) fun _ _ => atSymbolOf_mono (Nat.le_refl i) (by omega)) fun r =>
      raisesAt_mono (ih (i + 1) r) fun _ _ => atSymbolOf_mono (Nat.le_succ i) (by omega)

theorem quantChannel_raisesAt (f ka i : Nat) (c : Fin 4) (a pr : Int) (m : Buf) :
    RaisesAt (AtSymbolOf .quantOverflow i 1) (quantChannel f ka i c a pr m) := by
  refine ⟨fun _ _ => trivial, fun e site m' h => onlyAt_atSymbolOf (c := c) ?_⟩
  obtain ⟨hcode, -⟩ := (ends_iff.1 (quantChannel_ends (bufKept_refl m))).2 e site m' h
  obtain ⟨-, hsite, -⟩ := quantChannel_raised h
  exact ⟨hcode, hsite⟩

theorem quantSample_raisesAt (f sa ka i : Nat) (w : Predictor) (m : Buf) :
    RaisesAt (AtSymbolOf .quantOverflow i 1) (quantSample f sa ka i w m) :=
  raisesAt_bind (raisesAt_of_ends (readSample_ends ..)) fun _ => raisesAt_bind (quantChannel_raisesAt ..) fun _ =>
    raisesAt_bind (quantChannel_raisesAt ..) fun _ => raisesAt_bind (quantChannel_raisesAt ..) fun _ =>
      raisesAt_bind (quantChannel_raisesAt ..) fun _ => raisesAt_ok _

/-- Phase 1 of COMPRESS: QUANT_OVERFLOW(i, c) (R361, R363). -/
theorem quantSamples_raisesAt (f sa ka n i : Nat) (w : Predictor) (m : Buf) :
    RaisesAt (AtSymbolOf .quantOverflow i n) (quantSamples f sa ka n i w m) :=
  sampleLoop_raisesAt (loop := fun n i r => quantSamples f sa ka n i r.1 r.2) (pass := fun i r => quantSample f sa ka i r.1 r.2)
    (fun _ _ => rfl) (fun _ _ _ => rfl) (fun i r => quantSample_raisesAt f sa ka i r.1 r.2) n i (w, m)

theorem encodeChannel_raisesAt (ka i : Nat) (c : Fin 4) (var : Quad Word) (p : EncPort) :
    RaisesAt (AtSymbolOf .outputExhausted i 1) (encodeChannel ka i c var p) :=
  raisesAt_bind (raisesAt_orNoByte ..) fun _ =>
    raisesAt_bind (raisesAt_mono (encodeFn_raisesAt ..) fun _ _ => onlyAt_atSymbolOf) fun _ => raisesAt_ok _

theorem encodeSample_raisesAt (ka i : Nat) (var : Quad Word) (p : EncPort) :
    RaisesAt (AtSymbolOf .outputExhausted i 1) (encodeSample ka i var p) :=
  raisesAt_bind (encodeChannel_raisesAt ..) fun _ => raisesAt_bind (encodeChannel_raisesAt ..) fun _ =>
    raisesAt_bind (encodeChannel_raisesAt ..) fun _ => encodeChannel_raisesAt ..

theorem encodeSamples_raisesAt (ka n i : Nat) (var : Quad Word) (p : EncPort) :
    RaisesAt (AtSymbolOf .outputExhausted i n) (encodeSamples ka n i var p) :=
  sampleLoop_raisesAt (loop := fun n i r => encodeSamples ka n i r.1 r.2) (pass := fun i r => encodeSample ka i r.1 r.2)
    (fun _ _ => rfl) (fun _ _ _ => rfl) (fun i r => encodeSample_raisesAt ka i r.1 r.2) n i (var, p)

theorem decodeChannel_raisesAt (f i : Nat) (c : Fin 4) (pr : Int) (m : Buf) (var : Quad Word) (d : Decoder) :
    RaisesAt (AtSymbolOf .inputExhausted i 1) (decodeChannel f i c pr m var d) :=
  raisesAt_map (raisesAt_mono (decodeSymbol_raisesAt ..) fun _ _ => onlyAt_atSymbolOf)

theorem decodeSample_raisesAt (f i : Nat) (w : Predictor) (m : Buf) (d : Decoder) :
    RaisesAt (AtSymbolOf .inputExhausted i 1) (decodeSample f i w m d) :=
  raisesAt_bind (decodeChannel_raisesAt ..) fun _ => raisesAt_bind (decodeChannel_raisesAt ..) fun _ =>
    raisesAt_bind (decodeChannel_raisesAt ..) fun _ => raisesAt_bind (decodeChannel_raisesAt ..) fun _ => raisesAt_ok _

theorem storeComponent_raisesAt {E : ErrorCode → Site → Prop} (sa i : Nat) (c : Fin 4) (v : Int) (p : DecPort) :
    RaisesAt E (storeComponent sa i c v p) := raisesAt_map (raisesAt_orNoByte ..)

theorem decompressSample_raisesAt (f sa i : Nat) (w : Predictor) (p : DecPort) :
    RaisesAt (AtSymbolOf .inputExhausted i 1) (decompressSample f sa i w p) :=
  raisesAt_bind (raisesAt_liftStop (decodeSample_raisesAt ..)) fun _ => raisesAt_bind (storeComponent_raisesAt ..) fun _ =>
    raisesAt_bind (storeComponent_raisesAt ..) fun _ => raisesAt_bind (storeComponent_raisesAt ..) fun _ =>
      raisesAt_bind (storeComponent_raisesAt ..) fun _ => raisesAt_ok _

theorem decompressSamples_raisesAt (f sa n i : Nat) (w : Predictor) (p : DecPort) :
    RaisesAt (AtSymbolOf .inputExhausted i n) (decompressSamples f sa n i w p) :=
  sampleLoop_raisesAt (loop := fun n i r => decompressSamples f sa n i r.1 r.2)
    (pass := fun i r => decompressSample f sa i r.1 r.2) (fun _ _ => rfl) (fun _ _ _ => rfl)
    (fun i r => decompressSample_raisesAt f sa i r.1 r.2) n i (w, p)

/-! ## The table of R400 -/

theorem atSymbolOf_siteIn {code e : ErrorCode} {n : Nat} {site : Site} (hn : n ≤ 2 ^ 32) (h : AtSymbolOf code 0 n e site) :
    siteIn n site.sample site.chan := by
  obtain ⟨-, j, c, -, hj, rfl⟩ := h
  have hsample : u32 (BitVec.ofNat 32 j) = j := u32_ofNat (by omega)
  have hchan : u32 (BitVec.ofNat 32 c.val) = c.val := u32_ofNat (by omega)
  simp only [siteIn, Site.ofSymbol, hsample, hchan]
  omega

theorem ofChannel_site (c : Fin 4) : (Site.ofChannel c).sample = na ∧ u32 (Site.ofChannel c).chan < 4 :=
  ⟨rfl, (u32_ofNat (by omega)).trans_lt c.isLt⟩

theorem argU_lt (s : State) (k : Fin 8) : s.argU k < 2 ^ 32 := by
  fin_cases k <;> exact u32_lt _

/-- The codes that R400 lets a command i raise from s, with their sites. -/
def AllowedFor (i : Instr) (s : State) (e : ErrorCode) (site : Site) : Prop := errorAllowed i s e site.sample site.chan

theorem entropyCode_raisesAt {p : Profile} {s : State} (f ka oa oc : Nat) (var : Quad Word) (port : EncPort) :
    RaisesAt (AllowedFor (.compress p) s) (entropyCode f ka (s.argU 1) oa oc var port) := by
  unfold entropyCode
  split
  · exact raisesAt_raised _ (.inl ⟨rfl, rfl⟩)
  · refine raisesAt_bind (raisesAt_orNoByte ..) fun m => raisesAt_bind (raisesAt_mono (encodeSamples_raisesAt ..) ?_) fun r =>
      raisesAt_bind (raisesAt_mono (flushFn_raisesAt ..) ?_) fun q => raisesAt_ok _
    · intro e site h
      obtain rfl := h.1
      exact .inr (atSymbolOf_siteIn (argU_lt s 1).le h)
    · rintro e site ⟨rfl, rfl⟩
      exact .inl ⟨rfl, rfl⟩

/-- The phases of COMPRESS: QUANT_OVERFLOW(i, c), OUTPUT_EXHAUSTED(i, c), or OUTPUT_EXHAUSTED(n/a, n/a) for no room for the header
or in the flush. -/
theorem compressBody_raisesAt (p : Profile) (s : State) : RaisesAt (AllowedFor (.compress p) s) (compressBody p s) := by
  refine raisesAt_bind (raisesAt_liftStop (raisesAt_mono (quantSamples_raisesAt ..) fun e site h => ?_)) fun r =>
    raisesAt_bind (entropyCode_raisesAt ..) fun q => raisesAt_ok _
  obtain rfl := h.1
  exact atSymbolOf_siteIn (argU_lt s 1).le h

/-- DECOMPRESS after its check: INPUT_EXHAUSTED(n/a, n/a) for no header or in dec_init_fn, BAD_HEADER(n/a, n/a), or
INPUT_EXHAUSTED(i, c). -/
theorem decompressBody_raisesAt (s : State) : RaisesAt (AllowedFor .decompress s) (decompressBody s) := by
  unfold decompressBody
  split
  · exact raisesAt_raised _ (.inl ⟨rfl, rfl⟩)
  · refine raisesAt_bind (raisesAt_orNoByte ..) fun header => ?_
    simp only
    split
    · exact raisesAt_raised _ ⟨rfl, rfl, rfl⟩
    · refine raisesAt_bind (raisesAt_liftStop (raisesAt_mono (decInitFn_raisesAt ..) ?_)) fun d =>
        raisesAt_mono (decompressSamples_raisesAt ..) fun e site h => ?_
      · rintro e site ⟨rfl, rfl⟩
        exact .inl ⟨rfl, rfl⟩
      · obtain rfl := h.1
        exact .inr (atSymbolOf_siteIn (argU_lt s 2).le h)

/-! ## Every command -/

/-- If the command i failed from s, its code and site are in the table of R400. -/
def ErrorReport (i : Instr) (s : State) : Result → Prop
  | .next t => t.failed → errorAllowed i s t.status.errcode t.errSample t.errChan
  | _ => True

section
variable {i : Instr} {s : State}

theorem succeed_errorReport {u : State} (hs : s.accepted) (hu : u.status.err = s.status.err) : ErrorReport i s (succeed u) :=
  fun hf => absurd (hf.symm.trans (hu.trans hs.1)) (by decide)

theorem failWith_errorReport {u : State} {e : ErrorCode} {site : Site} (h : AllowedFor i s e site) :
    ErrorReport i s (failWith e site u) := fun _ => h

theorem ite_errorReport {c : Prop} [Decidable c] {r r' : Result} (h : ErrorReport i s r) (h' : ErrorReport i s r') :
    ErrorReport i s (if c then r else r') := by
  split
  · exact h
  · exact h'

theorem outcomeOf_errorReport {π α : Type} {put : π → State} {ok : α → State} {r : Except (Stop π) α} (hs : s.accepted)
    (hok : ∀ a, (ok a).status.err = s.status.err) (h : RaisesAt (AllowedFor i s) r) : ErrorReport i s (outcomeOf put ok r) := by
  rcases r with (⟨e, site, p⟩ | a) | a
  · exact failWith_errorReport (h.raised e site p rfl)
  · exact trivial
  · exact succeed_errorReport hs (hok a)

/-- The commands of the coders, which raise their exhaustion at (n/a, n/a). -/
theorem coder_errorReport {π α : Type} {put : π → State} {ok : α → State} {r : Except (Stop π) α} {code : ErrorCode}
    (hs : s.accepted) (hok : ∀ a, (ok a).status.err = s.status.err) (h : RaisesAt (OnlyAt code .na) r)
    (hcode : AllowedFor i s code .na) : ErrorReport i s (outcomeOf put ok r) := by
  refine outcomeOf_errorReport hs hok (raisesAt_mono h ?_)
  rintro e site ⟨rfl, rfl⟩
  exact hcode

end

/-- Every command that fails does so with a code and a site of R400's table. -/
theorem exec_errorReport (i : Instr) {s : State} (hs : s.accepted) : ErrorReport i s (exec i s) := by
  cases i with
  | nop | srst | prst | cdf b | freq b | v2b | b2v | scalebits | qmul cnj | qexp | predict | classify =>
    exact succeed_errorReport hs rfl
  | icdf b => exact ite_errorReport (failWith_errorReport ⟨rfl, rfl⟩) (succeed_errorReport hs rfl)
  | encInit | vupd => exact ite_errorReport (succeed_errorReport hs rfl) (failWith_errorReport ⟨rfl, rfl⟩)
  | decVal => exact ite_errorReport (failWith_errorReport ⟨rfl, rfl⟩) (succeed_errorReport hs rfl)
  | quant p | dequant p =>
    simp only [exec, execQuant, execDequant]
    split
    · exact failWith_errorReport (ofChannel_site _)
    · exact succeed_errorReport hs rfl
  | encSym | encSymb b =>
    exact ite_errorReport (failWith_errorReport ⟨rfl, rfl⟩) (ite_errorReport (failWith_errorReport ⟨rfl, rfl⟩)
      (coder_errorReport hs (fun _ => rfl) (encodeFn_raisesAt ..) ⟨rfl, rfl⟩))
  | encFlush =>
    exact ite_errorReport (failWith_errorReport ⟨rfl, rfl⟩)
      (coder_errorReport hs (fun _ => rfl) (flushFn_raisesAt ..) ⟨rfl, rfl⟩)
  | decInit =>
    exact ite_errorReport (coder_errorReport hs (fun _ => rfl) (decInitFn_raisesAt ..) ⟨rfl, rfl⟩)
      (failWith_errorReport ⟨rfl, rfl⟩)
  | decConsume =>
    exact ite_errorReport (failWith_errorReport ⟨rfl, rfl⟩) (ite_errorReport (failWith_errorReport ⟨rfl, rfl⟩)
      (coder_errorReport hs (fun _ => rfl) (consumeFn_raisesAt ..) ⟨rfl, rfl⟩))
  | decSymb b =>
    exact ite_errorReport (failWith_errorReport ⟨rfl, rfl⟩)
      (coder_errorReport hs (fun _ => rfl) (decodeSymbol_raisesAt ..) ⟨rfl, rfl⟩)
  | compress p =>
    have hscratch : u32 (BitVec.ofNat 32 (s.argU 5 / 4)) = s.argU 5 / 4 :=
      u32_ofNat ((Nat.div_le_self ..).trans_lt (argU_lt s 5))
    exact ite_errorReport (ite_errorReport (failWith_errorReport ⟨hscratch, rfl⟩)
      (outcomeOf_errorReport hs (fun _ => rfl) (compressBody_raisesAt p s))) (failWith_errorReport ⟨rfl, rfl⟩)
  | decompress =>
    exact ite_errorReport (outcomeOf_errorReport hs (fun _ => rfl) (decompressBody_raisesAt s))
      (failWith_errorReport ⟨rfl, rfl⟩)

/-- Settles O28: the codes by their numbers, the report of every command, and the engine's own error for an illegal word. -/
theorem errorCodesAndSites : Obligations.ErrorCodesAndSites := by
  refine ⟨by decide, fun i s t hs h hfailed => ?_, fun s e hd => runLatched_error hd⟩
  have hreport := exec_errorReport i hs
  rw [h] at hreport
  exact hreport hfailed

/-- Settles O7: a word that is not well formed matches no row, and the engine's move refuses such a word. -/
theorem illegalCommandCompletes : Obligations.IllegalCommandCompletes := by
  intro s hb hin hw
  have hrow : ¬∃ r ∈ opcodeRows, s.latch &&& r.mask = r.pattern := fun h => by simp [wellFormedWord_iff.2 h] at hw
  rw [step_nil hin]
  exact (legalWordsAreTheRows s.latch).2 hrow s hb rfl

end Machine
end Sys2Proof
end

section
/-! SUPPORT. The reset input (70_reset_and_hazards.md R450): the step that delivers it, what every register then reads, and the
invariant of the state after reset. -/

namespace Sys2Proof
namespace Machine

/-- The reset input is delivered whether a command runs or not, and BUSY is not looked at (R451). -/
theorem step_reset {s : State} {rest : List Input} (h : s.inputs = .reset :: rest) :
    step s = .next (s.withInputs rest).resetInput :=
  step_cons h

/-- Every register reads as in the state after reset: what a reset keeps of a state is behind no register. -/
theorem readReg_resetInput (s : State) (r : HostReg) : s.resetInput.readReg r = State.reset.readReg r := by
  cases r <;> rfl

theorem statusWord_resetInput (s : State) : s.resetInput.statusWord = 0#32 :=
  (readReg_resetInput s .status).trans (by decide)

theorem argWord_resetInput (s : State) (i : Fin 8) : s.resetInput.argWord i = 0#32 :=
  have hreset : ∀ j : Fin 8, State.reset.readReg (.arg j) = 0#32 := by decide
  (readReg_resetInput s (.arg i)).trans (hreset i)

theorem result_resetInput (s : State) (c : Fin 4) : s.resetInput.result.get c = 0#32 :=
  have hreset : ∀ d : Fin 4, State.reset.readReg (.result d) = 0#32 := by decide
  (readReg_resetInput s (.result c)).trans (hreset c)

/-- No flag is pending and no enable is set, so the line is low (R63). -/
theorem irq_resetInput (s : State) : s.resetInput.irq = false := by
  simp [State.irq, Status.reset]

/-- Settles O20: the step is `resetInput`, which keeps nothing of a register. -/
theorem resetInputState : Obligations.ResetInputState := by
  intro s rest h
  refine ⟨(s.withInputs rest).resetInput, step_reset h, rfl, resetInput_status _, statusWord_resetInput _, rfl, resetInput_intEn _,
    rfl, rfl, argWord_resetInput _, result_resetInput _, rfl, rfl, resetInput_enc _, resetInput_dec _, ?_, ?_, ?_,
    irq_resetInput _, rfl⟩
  all_goals rw [resetInput_pred]; rfl

/-- BUF after reset: nothing is written, and its size is the default of R10. -/
theorem buf_reset_inv : State.reset.buf.Inv := by decide

/-- Settles O21: part by part, as the reset values meet the invariant. -/
theorem resetMeetsInvariant : Obligations.ResetMeetsInvariant :=
  ⟨encoder_reset_inv _, decoder_reset_inv _, status_reset_inv, predictor_start_inv, buf_reset_inv⟩

end Machine
end Sys2Proof
end
